-- ==== Sys2Proof/Word.lean ====
section
/-! DEFINITION. The word types of the GGW-FSK modem core (10_state.md, 30_encoding.md). -/

namespace Sys2Proof

/-- A command word, and the response data of a command: 32 bits (R80, R85). -/
abbrev Word := BitVec 32

/-- A character of the text, in `TXBUF` and in `RXFIFO`: 8 bits (R100). -/
abbrev Byte := BitVec 8

/-- The content of a configuration register: 24 bits (R20). -/
abbrev CfgWord := BitVec 24

/-- The value of a `Bool` as a number: the bit 0 or 1 (R100). -/
def bitNat (b : Bool) : Nat := if b then 1 else 0

end Sys2Proof
end

