-- ==== Sys2Proof/Syntax.lean ====
section
/-! DEFINITION. The thirteen commands (30_encoding.md R82, R84), one constructor per row of
spec/opcode_table.json, and the names of the numbered registers they take. -/

namespace Sys2Proof

/-- A command with the operands its format gives it (R82). -/
inductive Instr
  /-- `NOP` (R185). -/
  | nop
  /-- `SETCFG r, v` (R186); `r` is the whole 4-bit field, of which 8 to 15 name no register (R90). -/
  | setcfg (r : BitVec 4) (v : CfgWord)
  /-- `GETCFG r` (R187); `r` as in `setcfg`. -/
  | getcfg (r : BitVec 4)
  /-- `TXPUT c` (R104). -/
  | txput (c : Byte)
  /-- `TXCLR` (R105). -/
  | txclr
  /-- `TRANSMIT` (R122). -/
  | transmit
  /-- `TXSTOP` (R134). -/
  | txstop
  /-- `LISTEN` (R151). -/
  | listen
  /-- `RXSTOP` (R152). -/
  | rxstop
  /-- `RXGET` (R106). -/
  | rxget
  /-- `GETSR s` (R188). -/
  | getsr (s : BitVec 4)
  /-- `EVCLR m` (R189). -/
  | evclr (m : BitVec 4)
  /-- `IRQEN m` (R190). -/
  | irqen (m : BitVec 4)
  deriving DecidableEq, Repr

/-- The eight configuration registers `CFG[0]` to `CFG[7]`, by name (R21). -/
inductive CfgReg
  | f0
  | delta
  | tsym
  | amp
  | ramp
  | detth
  | poll
  | nbins
  deriving DecidableEq, Repr

/-- The sixteen status registers `SR[0]` to `SR[15]`, by name (R39). -/
inductive SReg
  | id
  | state
  | flags
  | events
  | irqen
  | err
  | txlen
  | txsym
  | reading
  | rxacc
  | rxlvl
  | clklo
  | clkhi
  | t0lo
  | t0hi
  | tickcnt
  deriving DecidableEq, Repr

end Sys2Proof
end

