-- ==== Sys2Proof/WellFormed.lean ====
section
/-! DEFINITION. Which terms of Instr are commands: those some word decodes to. The operand types say
the widths of R82; what is left to check is that the register number of `SETCFG` and `GETCFG` is below
8 (R90). -/

namespace Sys2Proof

/-- `r[3]` is 0: the number names one of the eight configuration registers (R82, R90). -/
def cfgNumberOk (r : BitVec 4) : Bool := r.toNat < 8

/-- The term is a command of R84. -/
def Instr.wellFormed : Instr → Bool
  | .nop => true
  | .setcfg r _ => cfgNumberOk r
  | .getcfg r => cfgNumberOk r
  | .txput _ => true
  | .txclr => true
  | .transmit => true
  | .txstop => true
  | .listen => true
  | .rxstop => true
  | .rxget => true
  | .getsr _ => true
  | .evclr _ => true
  | .irqen _ => true

end Sys2Proof
end

