-- ==== Sys2Proof/Decode.lean ====
section
/-! DEFINITION. The command decoder and encoder (30_encoding.md R80 to R90): one 32-bit word, fields
`op[31:28]`, `r[27:24]`, `imm[23:0]`. -/

namespace Sys2Proof

/-- `op = cmd_word[31:28]` (R81). -/
def opField (w : Word) : BitVec 4 := w.extractLsb' 28 4

/-- `r = cmd_word[27:24]` (R81). -/
def rField (w : Word) : BitVec 4 := w.extractLsb' 24 4

/-- `imm = cmd_word[23:0]` (R81). -/
def immField (w : Word) : BitVec 24 := w.extractLsb' 0 24

/-- Format `N`: `r` and `imm` must be 0 (R82). -/
def decodeN (w : Word) (i : Instr) : Option Instr :=
  if rField w = 0 ∧ immField w = 0 then some i else none

/-- Format `RI`: `r[3]` must be 0 (R82). -/
def decodeRI (w : Word) (f : BitVec 4 → CfgWord → Instr) : Option Instr :=
  if cfgNumberOk (rField w) then some (f (rField w) (immField w)) else none

/-- Format `R3`: `r[3]` and `imm` must be 0 (R82). -/
def decodeR3 (w : Word) (f : BitVec 4 → Instr) : Option Instr :=
  if cfgNumberOk (rField w) ∧ immField w = 0 then some (f (rField w)) else none

/-- Format `R4`: `imm` must be 0 (R82). -/
def decodeR4 (w : Word) (f : BitVec 4 → Instr) : Option Instr :=
  if immField w = 0 then some (f (rField w)) else none

/-- Format `I8`: `r` and `imm[23:8]` must be 0, `imm[7:0]` is the character (R82). -/
def decodeI8 (w : Word) (f : Byte → Instr) : Option Instr :=
  if rField w = 0 ∧ (immField w).extractLsb' 8 16 = 0 then some (f ((immField w).extractLsb' 0 8)) else none

/-- Format `I4`: `r` and `imm[23:4]` must be 0, `imm[3:0]` is the mask (R82). -/
def decodeI4 (w : Word) (f : BitVec 4 → Instr) : Option Instr :=
  if rField w = 0 ∧ (immField w).extractLsb' 4 20 = 0 then some (f ((immField w).extractLsb' 0 4)) else none

/-- The command a word is, or none: then it is answered `IllegalCommand` (R84, R86 to R88). -/
def decode (w : Word) : Option Instr :=
  match (opField w).toNat with
  | 0x0 => decodeN w .nop
  | 0x1 => decodeRI w .setcfg
  | 0x2 => decodeR3 w .getcfg
  | 0x3 => decodeI8 w .txput
  | 0x4 => decodeN w .txclr
  | 0x5 => decodeN w .transmit
  | 0x6 => decodeN w .txstop
  | 0x7 => decodeN w .listen
  | 0x8 => decodeN w .rxstop
  | 0x9 => decodeN w .rxget
  | 0xA => decodeR4 w .getsr
  | 0xB => decodeI4 w .evclr
  | 0xC => decodeI4 w .irqen
  | _ => none

/-- The word with the three fields of R81. -/
def fieldsWord (op r : BitVec 4) (imm : BitVec 24) : Word := op ++ r ++ imm

/-- The word of a command (R82, R84). -/
def encode : Instr → Word
  | .nop => fieldsWord 0x0 0 0
  | .setcfg r v => fieldsWord 0x1 r v
  | .getcfg r => fieldsWord 0x2 r 0
  | .txput c => fieldsWord 0x3 0 ((0 : BitVec 16) ++ c)
  | .txclr => fieldsWord 0x4 0 0
  | .transmit => fieldsWord 0x5 0 0
  | .txstop => fieldsWord 0x6 0 0
  | .listen => fieldsWord 0x7 0 0
  | .rxstop => fieldsWord 0x8 0 0
  | .rxget => fieldsWord 0x9 0 0
  | .getsr s => fieldsWord 0xA s 0
  | .evclr m => fieldsWord 0xB 0 ((0 : BitVec 20) ++ m)
  | .irqen m => fieldsWord 0xC 0 ((0 : BitVec 20) ++ m)

/-- One row of the opcode map of R84. -/
structure OpcodeRow where
  mnemonic : String
  mask : Word
  value : Word
  deriving DecidableEq, Repr

/-- The opcode map of R84, columns `match` and `mask`. The decoder does not read it: that the two
agree is a statement. -/
def opcodeRows : List OpcodeRow :=
  [ ⟨"NOP", 0xFFFFFFFF, 0x00000000⟩,
    ⟨"SETCFG", 0xF8000000, 0x10000000⟩,
    ⟨"GETCFG", 0xF8FFFFFF, 0x20000000⟩,
    ⟨"TXPUT", 0xFFFFFF00, 0x30000000⟩,
    ⟨"TXCLR", 0xFFFFFFFF, 0x40000000⟩,
    ⟨"TRANSMIT", 0xFFFFFFFF, 0x50000000⟩,
    ⟨"TXSTOP", 0xFFFFFFFF, 0x60000000⟩,
    ⟨"LISTEN", 0xFFFFFFFF, 0x70000000⟩,
    ⟨"RXSTOP", 0xFFFFFFFF, 0x80000000⟩,
    ⟨"RXGET", 0xFFFFFFFF, 0x90000000⟩,
    ⟨"GETSR", 0xF0FFFFFF, 0xA0000000⟩,
    ⟨"EVCLR", 0xFFFFFFF0, 0xB0000000⟩,
    ⟨"IRQEN", 0xFFFFFFF0, 0xC0000000⟩ ]

/-- `w` is a word of the row: `(w AND mask) = match` (R84). -/
def OpcodeRow.holds (row : OpcodeRow) (w : Word) : Bool := w &&& row.mask == row.value

/-- The mnemonic of a command (R84). -/
def Instr.mnemonic : Instr → String
  | .nop => "NOP"
  | .setcfg _ _ => "SETCFG"
  | .getcfg _ => "GETCFG"
  | .txput _ => "TXPUT"
  | .txclr => "TXCLR"
  | .transmit => "TRANSMIT"
  | .txstop => "TXSTOP"
  | .listen => "LISTEN"
  | .rxstop => "RXSTOP"
  | .rxget => "RXGET"
  | .getsr _ => "GETSR"
  | .evclr _ => "EVCLR"
  | .irqen _ => "IRQEN"

/-- The decoder on a word given as a number with bit 0 the least significant bit, as
spec/opcode_table.json numbers it; every bit from `nbits` up is 0. -/
def decodeTableWord (nbits w : Nat) : Option Instr := decode (BitVec.ofNat 32 (w % 2 ^ nbits))

end Sys2Proof
end

