-- ==== Sys2Proof/Config.lean ====
section
/-! DEFINITION. The build parameters of 00_scope.md R11 and the free values of the model.
DESIGN CHOICE (log 1): the parameters are carried in State as the read-only field `config`, so that
every statement about all states holds for every legal set of parameters. -/

namespace Sys2Proof

/-- Which waveform the block has (R11, R129). The spec leaves `Wave` open under a bound: `anyWave` is
a free function under that bound, `referenceSine` the sinusoid of the reference set of parameters. -/
inductive Waveform
  | anyWave
  | referenceSine
  deriving DecidableEq, Repr

/-- The build parameters of R11, in the order of its table. -/
structure Config where
  /-- `FS`, the sample clock frequency in Hz. -/
  fs : Nat
  /-- `CLKW`, the width of `CLK` in bits. -/
  clkw : Nat
  /-- `SAMPW`, the width of an output sample. -/
  sampw : Nat
  /-- `PHW`, the width of the oscillator phase. -/
  phw : Nat
  /-- `AMP_ONE`, the `AMP` value that means full scale. -/
  ampOne : Nat
  /-- `MAGW`, the width of one magnitude sample. -/
  magw : Nat
  /-- `NBINS_MAX`, the size of `FRAME`. -/
  nbinsMax : Nat
  /-- `TXBUF_LEN`, the capacity of the transmit text buffer. -/
  txbufLen : Nat
  /-- `RXFIFO_DEPTH`, the capacity of the received-character queue. -/
  rxfifoDepth : Nat
  /-- `GUARD`, the trailing guard interval in ticks. -/
  guardTicks : Nat
  /-- `TOL`, the half-width of a classification window in Hz. -/
  tol : Nat
  /-- `DBK`, the factor of the decibel-like measure. -/
  dbk : Nat
  /-- `Wave`, the tone waveform. -/
  wave : Waveform
  deriving DecidableEq, Repr

/-- The reference values of R11, used by every test vector of 95_test_vectors.md. -/
def Config.reference : Config where
  fs := 48000
  clkw := 48
  sampw := 16
  phw := 32
  ampOne := 32768
  magw := 8
  nbinsMax := 1024
  txbufLen := 256
  rxfifoDepth := 16
  guardTicks := 24000
  tol := 250
  dbk := 20
  wave := .referenceSine

/-- `ticks(num/den) = floor(num/den * FS + 1/2)` (R12). -/
def Config.ticks (c : Config) (num den : Nat) : Nat := (2 * num * c.fs + den) / (2 * den)

/-- The reset value of `AMP`, `floor(0.3 * AMP_ONE + 1/2)` (R21). -/
def Config.ampReset (c : Config) : Nat := (2 * 3 * c.ampOne + 10) / (2 * 10)

/-- The constraints that R11 (and R47 for the layout of SR[8]) puts on the parameters.
DEDUCED (log 9): the last clauses say that the reset values of R21 are legal under these
parameters, without which R57 (i) would fail right after reset. -/
structure Config.Legal (c : Config) : Prop where
  fs_ge : 2 ≤ c.fs
  clkw_ge : 32 ≤ c.clkw
  sampw_ge : 2 ≤ c.sampw
  phw_ge : 1 ≤ c.phw
  ampOne_pow : c.ampOne = 2 ^ c.ampOne.log2
  ampOne_lt : c.ampOne < 2 ^ 24
  magw_ge : 1 ≤ c.magw
  magw_le : c.magw ≤ 15
  nbinsMax_le : c.nbinsMax ≤ 2 ^ 16
  txbufLen_ge : 1 ≤ c.txbufLen
  rxfifoDepth_ge : 1 ≤ c.rxfifoDepth
  guard_ge : 1 ≤ c.guardTicks
  dbk_mem : c.dbk = 10 ∨ c.dbk = 20
  nbins_reset : 1024 ≤ c.nbinsMax
  tsym_reset : 1 ≤ c.ticks 2 1000 ∧ c.ticks 2 1000 < 2 ^ 24
  ramp_reset : c.ticks 10 1000 < 2 ^ 24
  poll_reset : 1 ≤ c.ticks 100 1000 ∧ c.ticks 100 1000 < 2 ^ 24

/-! ## Free values. None of these has a body: no proof can see a value of them. -/

/-- The open waveform (R129, U10), before it is held to the bound of R129: a value for each phase. -/
opaque Config.freeWave : Nat → Int

/-- The level of `sink_rdy` in a period whose inputs are not listed (R8, log 2). -/
opaque Config.freeSinkRdy : Nat → Bool

/-- The level of `in_ok` in a period whose inputs are not listed (R8, log 2). -/
opaque Config.freeInOk : Nat → Bool

/-- A magnitude sample the environment delivers and the list `frame` does not give, by draw and bin
(R155, U9, log 11). -/
opaque Config.freeMag : Nat → Nat → Nat

/-- The level of `rsp_status` in a period without a command, which no rule gives (log 4). -/
opaque Config.freeRspStatus : Nat → BitVec 8

/-- The level of `rsp_data` in a period without a command, which no rule gives (log 4). -/
opaque Config.freeRspData : Nat → BitVec 32

end Sys2Proof
end

