-- ==== Sys2Proof/Machine/State.lean ====
section
/-! DEFINITION. The state of the block (10_state.md), the reasons a step can stop, and the state after
reset (R56). State is plain data and holds everything the spec gives the machine; INVENTORY.md lists
each field with its rule. -/

namespace Sys2Proof.Machine

/-- The ModemState (R33). Its 2-bit code is `modeCode`. -/
inductive Mode
  | idle
  | transmitting
  | listening
  deriving DecidableEq, Repr

/-- The causes of R210, without `OK`. `decodingError` and `alreadyListening` are never raised or
posted (R217). -/
inductive Cause
  | notReady
  | busy
  | deviceError
  | encodingError
  | decodingError
  | alreadyListening
  | illegalCommand
  | badValue
  | locked
  | bufFull
  | rxEmpty
  | rxOverflow
  deriving DecidableEq, Repr

/-- The configuration registers `CFG[0]` to `CFG[7]` (R20 to R29). -/
structure CfgRegs where
  f0 : CfgWord
  delta : CfgWord
  tsym : CfgWord
  amp : CfgWord
  ramp : CfgWord
  detth : CfgWord
  poll : CfgWord
  nbins : CfgWord
  deriving DecidableEq, Repr

/-- The FrequencyReading of the last detection tick (R38). -/
structure Reading where
  valid : Bool
  bin : Nat
  mag : Nat
  deriving DecidableEq, Repr

/-- The response of a command: `rsp_status` and `rsp_data` (R85). -/
structure Response where
  status : BitVec 8
  data : BitVec 32
  deriving DecidableEq, Repr

/-- The input ports of one clock period (R48): `rst`; the command word if `cmd_valid` is 1; the two
pins; the spectrum frame, as the list of its first samples (log 11: a sample the list does not give
is a free value). `in_sample` is not held: the block never reads it (R48, log 13). -/
structure InputPorts where
  rst : Bool
  cmd : Option Word
  sinkRdy : Bool
  inOk : Bool
  frame : List Nat
  deriving DecidableEq, Repr

/-- A memory: the written cells by index (for `TXBUF` these pairs are `Host.Cell`s). The canonical form
is `Memory.wf`. DESIGN CHOICE (log 6): a cell that is not listed has no value. -/
abbrev Memory (α : Type) := List (Nat × α)

/-- The canonical form: indices strictly rising. An unlisted cell has no value, so no entry can equal
what it reads as. -/
abbrev Memory.wf {α : Type} (m : Memory α) : Prop := m.Pairwise (fun p q => p.1 < q.1)

/-- The whole state. -/
structure State where
  /-- The build parameters (R11); no step writes them (log 1). -/
  config : Config
  /-- `CFG[0..7]` (R20). -/
  cfg : CfgRegs
  /-- `MODE` (R33). -/
  mode : Mode
  /-- `MGAIN`, in the format of `AMP` (R34). -/
  mgain : CfgWord
  /-- `TXCNT` (R30). -/
  txcnt : Nat
  /-- `NSYM` (R31). -/
  nsym : Nat
  /-- `T0` (R32). -/
  t0 : Nat
  /-- `TXLEN` (R35). -/
  txlen : Nat
  /-- `TICKCNT` (R36). -/
  tickcnt : BitVec 24
  /-- `RXSHIFT` (R37). -/
  rxshift : BitVec 8
  /-- `RXCNT` (R37). -/
  rxcnt : BitVec 3
  /-- `READING` (R38). -/
  reading : Reading
  /-- `EVENTS`: bit 0 `MSG`, 1 `ERR`, 2 `TXDONE`, 3 `FREQ` (R51). -/
  events : BitVec 4
  /-- `IRQEN` (R53). -/
  irqen : BitVec 4
  /-- `ERR` (R52). -/
  err : BitVec 8
  /-- `CLK` (R49). -/
  clk : Nat
  /-- `CLKHI_LATCH` (R50). -/
  clkhiLatch : BitVec 16
  /-- The memory `TXBUF` (R61). -/
  txbuf : Memory Byte
  /-- The memory `FRAME` (R63). -/
  frame : Memory Nat
  /-- The queue `RXFIFO`, oldest character first (R65). -/
  rxfifo : List Byte
  /-- Whether the last period answered a command (log 4). -/
  rspValid : Bool
  /-- `rsp_status` and `rsp_data` of the last period (R48, R85). -/
  rsp : Response
  /-- `out_sample` of the last tick (R48, R130; log 5). -/
  out : Int
  /-- The input ports of the current period (R48). -/
  port : InputPorts
  /-- The input ports of the periods still to come (log 2). -/
  future : List InputPorts
  /-- The index of the free values of this period (log 2). -/
  draws : Nat
  deriving DecidableEq, Repr

/-- Why a step can stop. The spec has no such stop (R78, R224): both are reached only in states no run
reaches, in which `TXLEN` counts cells that were never written. -/
inductive Fault
  /-- Raised by a read of a `TXBUF` cell that nothing has written (R62; log 6). Safe: the spec says the
  read does not happen. -/
  | txbufUnwritten (index : Nat)
  /-- Raised by a write to a `TXBUF` cell that does not exist (R54, R78; log 7). Safe: the spec says the
  write does not happen. -/
  | txbufOutOfRange (index : Nat)
  deriving DecidableEq, Repr

/-- Why a step can be refused. -/
inductive Refusal
  /-- Raised by an arm of `exec` whose command has no meaning yet (there is none). Safe. -/
  | notModelled (mnemonic : String)
  deriving DecidableEq, Repr

/-- The reset values of the configuration registers (R21): the source's defaults, durations in ticks
of `FS`. DESIGN CHOICE (log 22): a tick count or an `AMP` value of 2^24 or more, which only parameters
outside `Config.Legal` give, is cut mod 2^24 to the register. -/
def CfgRegs.initial (c : Config) : CfgRegs where
  f0 := 18000
  delta := 1000
  tsym := BitVec.ofNat 24 (c.ticks 2 1000)
  amp := BitVec.ofNat 24 c.ampReset
  ramp := BitVec.ofNat 24 (c.ticks 10 1000)
  detth := BitVec.ofInt 24 (-30)
  poll := BitVec.ofNat 24 (c.ticks 100 1000)
  nbins := 1024

/-- The input ports right after reset. DESIGN CHOICE (log 3): no command, both pins 1 (the default of
every script, R93), no sample listed. -/
def InputPorts.atReset : InputPorts where
  rst := false
  cmd := none
  sinkRdy := true
  inOk := true
  frame := []

/-- Every piece of state at its reset value (R56), for the given parameters and inputs. -/
def State.initial (c : Config) (port : InputPorts) (future : List InputPorts) (draws : Nat) : State where
  config := c
  cfg := CfgRegs.initial c
  mode := .idle
  mgain := 0
  txcnt := 0
  nsym := 0
  t0 := 0
  txlen := 0
  tickcnt := 0
  rxshift := 0
  rxcnt := 0
  reading := ⟨false, 0, 0⟩
  events := 0
  irqen := 0
  err := 0
  clk := 0
  clkhiLatch := 0
  txbuf := []
  frame := []
  rxfifo := []
  rspValid := false
  rsp := ⟨0, 0⟩
  out := 0
  port := port
  future := future
  draws := draws

/-- The block right after reset (R56, R240), with the reference parameters of R11. -/
def State.reset : State := State.initial Config.reference InputPorts.atReset [] 0

end Sys2Proof.Machine
end

