-- ==== Sys2Proof/Machine/Flags.lean ====
section
/-! DEFINITION. The level flags and the interrupt line (R42, R51, R218). -/

namespace Sys2Proof.Machine

/-- `EVENTS.MSG` (R51). -/
def evMsg : BitVec 4 := 0b0001

/-- `EVENTS.ERR` (R51). -/
def evErr : BitVec 4 := 0b0010

/-- `EVENTS.TXDONE` (R51). -/
def evTxdone : BitVec 4 := 0b0100

/-- `EVENTS.FREQ` (R51). -/
def evFreq : BitVec 4 := 0b1000

/-- The output `irq`: `(EVENTS AND IRQEN) != 0` (R218). -/
def irq (s : State) : Bool := s.events &&& s.irqen != 0

/-- `RXNE`: `RXFIFO` holds at least one character (R42). -/
def rxne (s : State) : Bool := !s.rxfifo.isEmpty

/-- `TXFULL`: `TXLEN` = `TXBUF_LEN` (R42). -/
def txfull (s : State) : Bool := s.txlen == s.config.txbufLen

/-- `TXTONE`: a tone and not the guard interval is being produced (R42). -/
def txtone (s : State) : Bool := s.mode == .transmitting && decide (s.txcnt < s.nsym * s.cfg.tsym.toNat)

/-- `SR[2]`: the six level flags, bit 0 `SINK_RDY` to bit 5 `TXTONE` (R42). -/
def flagsView (s : State) : Word :=
  (0 : BitVec 26) ++ BitVec.ofBool (txtone s) ++ BitVec.ofBool (irq s) ++ BitVec.ofBool (txfull s)
    ++ BitVec.ofBool (rxne s) ++ BitVec.ofBool s.port.inOk ++ BitVec.ofBool s.port.sinkRdy

end Sys2Proof.Machine
end

