-- ==== Sys2Proof/Machine/Ops.lean ====
section
/-! DEFINITION. The named operations over memories, registers, ports and errors (R14): `MemRead`,
`MemWrite`, `Push`, `Pop`, `raise`, `respond`, `post`, reset. -/

namespace Sys2Proof.Machine

/-- What a step or a part of one answers. -/
abbrev Result := Host.Outcome State Fault Refusal

/-- Go on with the next state; a stop stays a stop. -/
def andThen (o : Result) (f : State → Result) : Result :=
  match o with
  | .next s => f s
  | .fault r => .fault r
  | .refused r => .refused r

/-! ## Memories (R60 to R64) -/

/-- `MemRead(space, k, 1)`: the cell's value, none if nothing has written it (R68; log 6). -/
def memRead {α : Type} (m : Memory α) (k : Nat) : Option α :=
  match m with
  | [] => none
  | (a, x) :: rest => if a = k then some x else memRead rest k

/-- `MemWrite(space, k, 1, v)` (R68), keeping the canonical form. -/
def memWrite {α : Type} (m : Memory α) (k : Nat) (v : α) : Memory α :=
  match m with
  | [] => [(k, v)]
  | (a, x) :: rest =>
    if k < a then (k, v) :: (a, x) :: rest
    else if k = a then (k, v) :: rest
    else (a, x) :: memWrite rest k v

/-- The cells from index `k` up that hold the given values. -/
def cellsFrom {α : Type} (k : Nat) : List α → Memory α
  | [] => []
  | v :: rest => (k, v) :: cellsFrom (k + 1) rest

/-- Write the `n` values `vs` to the cells 0 to `n - 1`, as the capture of one frame does (R63, R154);
the cells from `n` on keep what they hold. -/
def memCapture {α : Type} (m : Memory α) (n : Nat) (vs : List α) : Memory α :=
  cellsFrom 0 vs ++ m.filter (fun p => decide (n ≤ p.1))

/-- The cells `k` to `k + n - 1` in order, or the index of the first one nothing has written. -/
def memReadRange {α : Type} (m : Memory α) (k : Nat) : Nat → Except Nat (List α)
  | 0 => .ok []
  | n + 1 =>
    match memRead m k with
    | none => .error k
    | some x =>
      match memReadRange m (k + 1) n with
      | .error j => .error j
      | .ok xs => .ok (x :: xs)

/-! ## Responses and errors (R85, R210 to R212) -/

/-- The code of a cause (R210). -/
def causeCode : Cause → BitVec 8
  | .notReady => 0x01
  | .busy => 0x02
  | .deviceError => 0x03
  | .encodingError => 0x04
  | .decodingError => 0x05
  | .alreadyListening => 0x06
  | .illegalCommand => 0x10
  | .badValue => 0x11
  | .locked => 0x12
  | .bufFull => 0x13
  | .rxEmpty => 0x14
  | .rxOverflow => 0x15

/-- Drive the response port with the response of this period's command (R48, R85). -/
def answer (status : BitVec 8) (data : Word) (s : State) : State :=
  { s with rspValid := true, rsp := ⟨status, data⟩ }

/-- `respond(data)`: status `OK` and the data (R14). -/
def respond (data : Word) (s : State) : Result := .next (answer 0 data s)

/-- `raise <Cause>`, the block's synchronous exception: status the cause's code, data 0, nothing else
(R14, R211, R222). There is no entry address, no saved state and no return (R222, R223). -/
def raise (c : Cause) (s : State) : Result := .next (answer (causeCode c) 0 s)

/-- A period without a command answers none (R80); the level of the response port is then a free value
(log 4). -/
def noResponse (s : State) : State :=
  { s with rspValid := false, rsp := ⟨Config.freeRspStatus s.draws, Config.freeRspData s.draws⟩ }

/-- `EVENTS` with the bits of `mask` set (R51). -/
def setEvents (mask : BitVec 4) (s : State) : State := { s with events := s.events ||| mask }

/-- `post <Cause>`, the block's asynchronous exception: `ERR <- code`, `EVENTS.ERR <- 1`; the step goes
on (R14, R212). Acknowledging it is the command `EVCLR`; nothing is restored (R223). -/
def post (c : Cause) (s : State) : State := setEvents evErr { s with err := causeCode c }

/-! ## The queue (R66) -/

/-- `Push(RXFIFO, c)` (R66, R175): queued with `EVENTS.MSG` set, or lost with `RxOverflow` posted. -/
def push (c : Byte) (s : State) : State :=
  if s.rxfifo.length < s.config.rxfifoDepth then
    setEvents evMsg { s with rxfifo := s.rxfifo ++ [c] }
  else post .rxOverflow s

/-! ## Registers -/

/-- `CFG[r]` (R20). -/
def cfgRead (r : CfgReg) (s : State) : CfgWord :=
  match r with
  | .f0 => s.cfg.f0
  | .delta => s.cfg.delta
  | .tsym => s.cfg.tsym
  | .amp => s.cfg.amp
  | .ramp => s.cfg.ramp
  | .detth => s.cfg.detth
  | .poll => s.cfg.poll
  | .nbins => s.cfg.nbins

/-- `CFG[r] <- v` (R20). -/
def cfgWrite (r : CfgReg) (v : CfgWord) (s : State) : State :=
  match r with
  | .f0 => { s with cfg := { s.cfg with f0 := v } }
  | .delta => { s with cfg := { s.cfg with delta := v } }
  | .tsym => { s with cfg := { s.cfg with tsym := v } }
  | .amp => { s with cfg := { s.cfg with amp := v } }
  | .ramp => { s with cfg := { s.cfg with ramp := v } }
  | .detth => { s with cfg := { s.cfg with detth := v } }
  | .poll => { s with cfg := { s.cfg with poll := v } }
  | .nbins => { s with cfg := { s.cfg with nbins := v } }

/-- `zext_32(MODE)`: 0 Idle, 1 Transmitting, 2 Listening (R33, R41). -/
def modeCode : Mode → Word
  | .idle => 0
  | .transmitting => 1
  | .listening => 2

/-! ## Leaving a session -/

/-- The end of a transmission, shared by `TxComplete` and `TXSTOP`: `MODE`, `MGAIN`, `TXCNT` and `NSYM`
return to Idle and 0; `T0`, `TXBUF`, `TXLEN` are kept (R133, R134). -/
def endTransmit (s : State) : State := { s with mode := .idle, mgain := 0, txcnt := 0, nsym := 0 }

/-- The end of a listen session: `MODE`, `TICKCNT`, `RXCNT`, `RXSHIFT` return to Idle and 0 (R152). -/
def endListen (s : State) : State := { s with mode := .idle, tickcnt := 0, rxcnt := 0, rxshift := 0 }

/-! ## The ports and reset -/

/-- The command word of this period, if `cmd_valid` is 1 (R80). -/
def fetch (s : State) : Option Word := s.port.cmd

/-- The inputs of a period nobody listed: no reset, no command, free pins, no sample given (log 2). -/
def freePorts (n : Nat) : InputPorts :=
  { rst := false, cmd := none, sinkRdy := Config.freeSinkRdy n, inOk := Config.freeInOk n, frame := [] }

/-- The clock period ends: the next period's inputs are at the ports. -/
def nextPeriod (s : State) : State :=
  match s.future with
  | [] => { s with port := freePorts s.draws, draws := s.draws + 1 }
  | p :: rest => { s with port := p, future := rest, draws := s.draws + 1 }

/-- What a period with `rst` = 1 does: every piece of state takes its reset value (R240, R56). The inputs
are not the block's state and stay (log 19). -/
def resetBlock (s : State) : State := State.initial s.config s.port s.future s.draws

/-- The input ports carry the command word `w` in this period, with `rst` = 0. -/
def withCommand (w : Word) (s : State) : State := { s with port := { s.port with rst := false, cmd := some w } }

end Sys2Proof.Machine
end

