-- ==== Sys2Proof/Machine/Operands.lean ====
section
/-! DEFINITION. The operand forms: configuration register numbers and legal values (R21, R186), status
register numbers and views (R39 to R47), and the arithmetic the rules use (R14). -/

namespace Sys2Proof.Machine

/-- `sext_24(v)` (R14). -/
def sext24 (v : CfgWord) : Int := v.toInt

/-- The largest output magnitude, `WMAX = 2^(SAMPW-1) - 1` (R11). -/
def wmax (c : Config) : Nat := 2 ^ (c.sampw - 1) - 1

/-- The maximum representable magnitude, `MAGMAX = 2^MAGW - 1` (R11). -/
def magmax (c : Config) : Nat := 2 ^ c.magw - 1

/-- `tdiv(x, y)`: integer division rounded toward zero (R14). -/
def tdiv (x y : Int) : Int := x.tdiv y

/-- The configuration register a 4-bit number names; 8 to 15 name none (R20, R90). -/
def cfgRegOf (r : BitVec 4) : Option CfgReg :=
  match r.toNat with
  | 0 => some .f0
  | 1 => some .delta
  | 2 => some .tsym
  | 3 => some .amp
  | 4 => some .ramp
  | 5 => some .detth
  | 6 => some .poll
  | 7 => some .nbins
  | _ => none

/-- The status register a 4-bit number names: all sixteen exist (R90). -/
def sregOf (n : BitVec 4) : SReg :=
  match n.toNat with
  | 0 => .id
  | 1 => .state
  | 2 => .flags
  | 3 => .events
  | 4 => .irqen
  | 5 => .err
  | 6 => .txlen
  | 7 => .txsym
  | 8 => .reading
  | 9 => .rxacc
  | 10 => .rxlvl
  | 11 => .clklo
  | 12 => .clkhi
  | 13 => .t0lo
  | 14 => .t0hi
  | _ => .tickcnt

/-- `Legal(r, v)` (R186). -/
def legal (c : Config) (r : CfgReg) (v : CfgWord) : Bool :=
  match r with
  | .f0 => 1 ≤ v.toNat
  | .delta => true
  | .tsym => 1 ≤ v.toNat
  | .amp => v.toNat ≤ c.ampOne
  | .ramp => true
  | .detth => -255 ≤ sext24 v ∧ sext24 v ≤ 0
  | .poll => 1 ≤ v.toNat
  | .nbins => 1 ≤ v.toNat ∧ v.toNat ≤ c.nbinsMax

/-- Bits [47:32] of a clock value (R47, R50; log 17). -/
def clockHigh (t : Nat) : BitVec 16 := BitVec.ofNat 16 (t / 2 ^ 32)

/-- Bits [31:0] of a clock value (R47, R50). -/
def clockLow (t : Nat) : Word := BitVec.ofNat 32 t

/-- `SR[7]`: the index of the symbol being sent, `NSYM` in the guard interval, 0 outside a transmission
(R46). With `TSYM` = 0, which is never legal, the quotient is 0 (DESIGN CHOICE, log 23). -/
def txsym (s : State) : Nat :=
  match s.mode with
  | .transmitting => min (s.txcnt / s.cfg.tsym.toNat) s.nsym
  | .idle => 0
  | .listening => 0

/-- `SR[8]`: valid in bit 31, the magnitude from bit 16 up, the bin in [15:0] (R47; log 17). -/
def readingView (r : Reading) : Word :=
  BitVec.ofBool r.valid ++ BitVec.ofNat 15 r.mag ++ BitVec.ofNat 16 r.bin

/-- `SR[9]`: `RXCNT` in [10:8], `RXSHIFT` in [7:0] (R47). -/
def rxaccView (s : State) : Word := (0 : BitVec 21) ++ s.rxcnt ++ s.rxshift

/-- `SR[n]`, the 32-bit view of the state a status register returns (R39 to R47; log 17: a value too large for
its view is cut). -/
def statusRead (r : SReg) (s : State) : Word :=
  match r with
  | .id => 0x47475731
  | .state => modeCode s.mode
  | .flags => flagsView s
  | .events => s.events.zeroExtend 32
  | .irqen => s.irqen.zeroExtend 32
  | .err => s.err.zeroExtend 32
  | .txlen => BitVec.ofNat 32 s.txlen
  | .txsym => BitVec.ofNat 32 (txsym s)
  | .reading => readingView s.reading
  | .rxacc => rxaccView s
  | .rxlvl => BitVec.ofNat 32 s.rxfifo.length
  | .clklo => clockLow s.clk
  | .clkhi => s.clkhiLatch.zeroExtend 32
  | .t0lo => clockLow s.t0
  | .t0hi => (clockHigh s.t0).zeroExtend 32
  | .tickcnt => s.tickcnt.zeroExtend 32

end Sys2Proof.Machine
end

