-- ==== Sys2Proof/Machine/Modem.lean ====
section
/-! DEFINITION. The Modem facade's own commands (44_modem_facade.md): `NOP`, `SETCFG`, `GETCFG`, `GETSR`,
`EVCLR`, `IRQEN`. -/

namespace Sys2Proof.Machine

/-- `NOP` (R185). -/
def execNop (s : State) : Result := respond 0 s

/-- `SETCFG r, v`: write a configuration register (R186). A number above 7, which no word decodes to,
is answered `IllegalCommand` (R90; log 14). -/
def execSetcfg (r : BitVec 4) (v : CfgWord) (s : State) : Result :=
  match cfgRegOf r with
  | none => raise .illegalCommand s
  | some reg =>
    if s.mode ≠ .idle then raise .locked s
    else if legal s.config reg v = false then raise .badValue s
    else respond (v.zeroExtend 32) (cfgWrite reg v s)

/-- `GETCFG r`: read a configuration register (R187); numbers above 7 as in `SETCFG`. -/
def execGetcfg (r : BitVec 4) (s : State) : Result :=
  match cfgRegOf r with
  | none => raise .illegalCommand s
  | some reg => respond ((cfgRead reg s).zeroExtend 32) s

/-- The one side effect of a status read: `GETSR 11` latches `CLK[47:32]` (R50, R188). -/
def statusLatch (r : SReg) (s : State) : State :=
  if r = .clklo then { s with clkhiLatch := clockHigh s.clk } else s

/-- `GETSR s`: read a status register, computed from the state before this step (R188). -/
def execGetsr (n : BitVec 4) (s : State) : Result :=
  respond (statusRead (sregOf n) s) (statusLatch (sregOf n) s)

/-- `EVCLR m`: clear event bits and return the old ones (R189). -/
def execEvclr (m : BitVec 4) (s : State) : Result :=
  respond (s.events.zeroExtend 32) { s with events := s.events &&& ~~~m }

/-- `IRQEN m`: set the interrupt enable mask (R190). -/
def execIrqen (m : BitVec 4) (s : State) : Result :=
  respond (m.zeroExtend 32) { s with irqen := m }

end Sys2Proof.Machine
end

