-- ==== Sys2Proof/Machine/BitCodec.lean ====
section
/-! DEFINITION. BitCodec (40_bitcodec.md): the functions `encode` and `decode` of text and bits, and the
commands `TXPUT`, `TXCLR`, `RXGET`. -/

namespace Sys2Proof.Machine

/-- Bit `n` of a character in transmission order, most significant first: `(c >> (7 - n)) AND 1`
(R67, R101). -/
def charBit (c : Byte) (n : Nat) : Bool := c.getLsbD (7 - n)

/-- The 8-bit group of a character (R101). -/
def charBits (c : Byte) : List Bool := (List.range 8).map (charBit c)

/-- The character is 7-bit ASCII: `encode` accepts it (R107). -/
def isAscii (c : Byte) : Bool := c.toNat < 0x80

/-- `encode(text)`: the groups in character order, or `EncodingError` if a character is not 7-bit ASCII
(R101, R107). -/
def encodeText (text : List Byte) : Except Cause (List Bool) :=
  if text.all isAscii then .ok (text.flatMap charBits) else .error .encodingError

/-- A group of bits read as a binary integer, the first bit the highest (R102). -/
def bitsValue (bits : List Bool) : Nat := bits.foldl (fun n b => 2 * n + bitNat b) 0

/-- `decode(bits)`: the characters of the consecutive groups of 8 bits; a shorter trailing group is
dropped (R102). -/
def decodeBits : List Bool → List Byte
  | b0 :: b1 :: b2 :: b3 :: b4 :: b5 :: b6 :: b7 :: rest =>
    BitVec.ofNat 8 (bitsValue [b0, b1, b2, b3, b4, b5, b6, b7]) :: decodeBits rest
  | _ => []

/-- `TXPUT c`: append one character to the text to be sent (R104). DESIGN CHOICE (log 21): a new length of
2^32 or more, which only a `TXBUF_LEN` that large allows, is responded mod 2^32. -/
def execTxput (c : Byte) (s : State) : Result :=
  if s.mode ≠ .idle then raise .locked s
  else if s.txlen = s.config.txbufLen then raise .bufFull s
  else if s.config.txbufLen < s.txlen then .fault (.txbufOutOfRange s.txlen)
  else
    respond (BitVec.ofNat 32 (s.txlen + 1))
      { s with txbuf := memWrite s.txbuf s.txlen c, txlen := s.txlen + 1 }

/-- `TXCLR`: empty the text to be sent; the cells keep their content (R105). -/
def execTxclr (s : State) : Result :=
  if s.mode ≠ .idle then raise .locked s else respond 0 { s with txlen := 0 }

/-- `RXGET`: take the oldest undelivered received character (R106). -/
def execRxget (s : State) : Result :=
  match s.rxfifo with
  | [] => raise .rxEmpty s
  | c :: rest => respond (c.zeroExtend 32) { s with rxfifo := rest }

end Sys2Proof.Machine
end

