-- ==== Sys2Proof/Machine/SymbolDecoder.lean ====
section
/-! DEFINITION. SymbolDecoder (43_symbol_decoder.md): the window test, the classification, and the
accumulation of bits into characters. It has no command; it runs inside a detection tick. -/

namespace Sys2Proof.Machine

/-- `InWindow(k, fc)`: `abs(k*FS - 2*NBINS*fc) <= 2*NBINS*TOL` (R171). -/
def inWindow (s : State) (k fc : Nat) : Bool :=
  decide (((k * s.config.fs : Nat) : Int) - ((2 * s.cfg.nbins.toNat * fc : Nat) : Int)
      ≤ ((2 * s.cfg.nbins.toNat * s.config.tol : Nat) : Int)
    ∧ -((2 * s.cfg.nbins.toNat * s.config.tol : Nat) : Int)
      ≤ ((k * s.config.fs : Nat) : Int) - ((2 * s.cfg.nbins.toNat * fc : Nat) : Int))

/-- The outcome of `Classify(kmax)`: bit 0, bit 1, or dropped (R170, R172, R173). -/
def classifyBin (s : State) (kmax : Nat) : Option Bool :=
  match inWindow s kmax s.cfg.f0.toNat, inWindow s kmax (s.cfg.f0.toNat + s.cfg.delta.toNat) with
  | true, false => some false
  | false, true => some true
  | true, true => none
  | false, false => none

/-- What one classified bit makes of the accumulator: its new content, and the character it completes. -/
structure Accumulated where
  shift : BitVec 8
  cnt : BitVec 3
  char : Option Byte
  deriving DecidableEq, Repr

/-- The arithmetic of `Accumulate(b)` (R174). -/
def accumulateBit (shift : BitVec 8) (cnt : BitVec 3) (b : Bool) : Accumulated :=
  let v := (shift <<< 1) ||| (BitVec.ofBool b).zeroExtend 8
  if cnt = 7 then ⟨0, 0, some v⟩ else ⟨v, cnt + 1, none⟩

/-- `RXSHIFT` and `RXCNT` written (R37). -/
def setAccumulator (shift : BitVec 8) (cnt : BitVec 3) (s : State) : State := { s with rxshift := shift, rxcnt := cnt }

/-- `Accumulate(b)` (R174): a completed character is pushed (R175). -/
def accumulate (b : Bool) (s : State) : State :=
  let a := accumulateBit s.rxshift s.rxcnt b
  match a.char with
  | none => setAccumulator a.shift a.cnt s
  | some v => push v (setAccumulator a.shift a.cnt s)

/-- `Classify(kmax)` (R170): a dropped reading changes nothing. -/
def classify (kmax : Nat) (s : State) : State :=
  match classifyBin s kmax with
  | none => s
  | some b => accumulate b s

end Sys2Proof.Machine
end

