-- ==== Sys2Proof/Machine/SpectralDetector.lean ====
section
/-! DEFINITION. SpectralDetector (42_spectral_detector.md): the spectrum frame, the peak scan, the
threshold, the detection tick, the poll timer, and the commands `LISTEN` and `RXSTOP`. -/

namespace Sys2Proof.Machine

/-- The `n` samples of the frame at the port from bin `k` on: `MAGW` bits each; a sample the list does
not give is a free value (R155; log 11). -/
def frameSamples (c : Config) (draw : Nat) : Nat → Nat → List Nat → List Nat
  | 0, _, _ => []
  | n + 1, k, [] => Config.freeMag draw k % 2 ^ c.magw :: frameSamples c draw n (k + 1) []
  | n + 1, k, x :: xs => x % 2 ^ c.magw :: frameSamples c draw n (k + 1) xs

/-- The SpectrumFrame of this period: `NBINS` magnitudes (R155). -/
def portFrame (s : State) : List Nat := frameSamples s.config s.draws s.cfg.nbins.toNat 0 s.port.frame

/-- The capture of one SpectrumFrame into `FRAME` (R63, R154). -/
def captureFrame (s : State) : State := { s with frame := memCapture s.frame s.cfg.nbins.toNat (portFrame s) }

/-- The loop of `PeakScan()` with the maximum `m` so far, first seen at bin `kmax`: only a strictly
greater value moves them (R158). -/
def scanFrom (m kmax : Nat) : Memory Nat → Nat × Nat
  | [] => (m, kmax)
  | (k, x) :: rest => if m < x then scanFrom x k rest else scanFrom m kmax rest

/-- `PeakScan()` over cells in ascending order: the maximum and its first bin (R158). -/
def scanCells : Memory Nat → Nat × Nat
  | [] => (0, 0)
  | (k, x) :: rest => scanFrom x k rest

/-- `PeakScan()` (R158): the scan of the cells below `NBINS`. -/
def peakScan (s : State) : Nat × Nat :=
  scanCells (s.frame.filter (fun p => decide (p.1 < s.cfg.nbins.toNat)))

/-- `Above(m)` (R160) for the threshold `d`: `m != 0` and `m^DBK * 10^(-d) >= MAGMAX^DBK`. For `d > 0`,
which no legal `DETTH` is, the same inequality with the power on the other side (log 16). -/
def above (c : Config) (d : Int) (m : Nat) : Bool :=
  m != 0 && decide (magmax c ^ c.dbk * 10 ^ d.toNat ≤ m ^ c.dbk * 10 ^ (-d).toNat)

/-- The reading a scan result gives: valid when it is above the threshold (R154, R162). -/
def readingOf (s : State) (best : Nat × Nat) : Reading :=
  { valid := above s.config (sext24 s.cfg.detth) best.1, bin := best.2, mag := best.1 }

/-- `READING` written (R38). -/
def setReading (r : Reading) (s : State) : State := { s with reading := r }

/-- The part of a detection tick after the capture: scan, threshold, reading, classification (R154). -/
def detect (s : State) : State :=
  let r := readingOf s (peakScan s)
  if r.valid then classify r.bin (setEvents evFreq (setReading r s)) else setReading r s

/-- One detection tick (R154, R156). -/
def detectionTick (s : State) : State :=
  if s.port.inOk = false then post .deviceError (setReading ⟨false, 0, 0⟩ s)
  else detect (captureFrame s)

/-- A tick step now would perform a detection tick (R153). -/
def detectionDue (s : State) : Bool := s.tickcnt.toNat + 1 == s.cfg.poll.toNat

/-- `TICKCNT` written (R36). -/
def setTickcnt (n : BitVec 24) (s : State) : State := { s with tickcnt := n }

/-- Branch 3 of the tick step: count, and at `POLL` return to 0 and detect (R70, R153). -/
def pollTimer (s : State) : State :=
  if detectionDue s then detectionTick (setTickcnt 0 s) else setTickcnt (s.tickcnt + 1) s

/-- What an accepted `LISTEN` writes (R151). -/
def startListen (s : State) : State :=
  { s with tickcnt := 0, rxcnt := 0, rxshift := 0, reading := ⟨false, 0, 0⟩, mode := .listening }

/-- `LISTEN`: start a listen session (R151). -/
def execListen (s : State) : Result :=
  if s.mode ≠ .idle then raise .busy s
  else if s.port.inOk = false then raise .deviceError s
  else respond 0 (startListen s)

/-- `RXSTOP`: end a listen session; a no-op in every other mode (R152). -/
def execRxstop (s : State) : Result :=
  match s.mode with
  | .listening => respond 1 (endListen s)
  | .idle => respond 0 s
  | .transmitting => respond 0 s

end Sys2Proof.Machine
end

