-- ==== Sys2Proof/Machine/ToneScheduler.lean ====
section
/-! DEFINITION. ToneScheduler (41_tone_scheduler.md): the plan, the envelope, the oscillator, the output
sample, completion, and the commands `TRANSMIT` and `TXSTOP`. -/

namespace Sys2Proof.Machine

/-! ## The plan (R123 to R126) -/

/-- The bit of symbol `i`: bit `7 - (i mod 8)` of `TXBUF[i div 8]` (R125); none if nothing has written
the cell (log 6). -/
def textBit (s : State) (i : Nat) : Option Bool :=
  (memRead s.txbuf (i / 8)).map (fun c => charBit c (i % 8))

/-- The tone frequency of a bit: `F0` for 0, `F0 + DELTA` for 1, in unbounded arithmetic (R23, R126). -/
def toneFrequency (s : State) (b : Bool) : Nat := s.cfg.f0.toNat + bitNat b * s.cfg.delta.toNat

/-- One ToneSpec: frequency in Hz, start and end in ticks of `CLK` (R123, R124). -/
structure ToneSpec where
  frequency : Nat
  start : Nat
  stop : Nat
  deriving DecidableEq, Repr

/-- `plan[i]` (R124): times are unbounded integers. -/
def toneSpec (s : State) (i : Nat) : Option ToneSpec :=
  (textBit s i).map (fun b =>
    { frequency := toneFrequency s b
      start := s.t0 + i * s.cfg.tsym.toNat
      stop := s.t0 + (i + 1) * s.cfg.tsym.toNat })

/-- The TransmissionPlan in flight: one ToneSpec per symbol, in order (R123). -/
def plan (s : State) : List ToneSpec := (List.range s.nsym).filterMap (toneSpec s)

/-! ## The envelope (R127) -/

/-- `(en, ed)`: the envelope of a symbol of `tsym` ticks at offset `k` is the gain `en / ed`
(R127, R130). -/
def envelope (tsym ramp k : Nat) : Nat × Nat :=
  if ramp = 0 then (1, 1) else (min ramp (min k (tsym - k)), ramp)

/-! ## The oscillator and the waveform (R128, R129) -/

/-- `FTW(f)`: `f * 2^PHW / FS` rounded to nearest, half up (R128); 0 for `FS` = 0, which R11
excludes (DESIGN CHOICE, log 23). -/
def ftw (c : Config) (f : Nat) : Nat := (2 * f * 2 ^ c.phw + c.fs) / (2 * c.fs)

/-- `ph(k)`: the phase at offset `k`, from 0 at the symbol's first sample (R128). -/
def phase (c : Config) (f k : Nat) : Nat := (k * ftw c f) % 2 ^ c.phw

/-- The fixed-point one of the reference sine: `2^96` (log 10). -/
def sineOne : Nat := 2 ^ 96

/-- `floor(pi * 2^96)` (log 10). -/
def sineHalfTurn : Nat := 248902613312231085230521944622

/-- The power series of the sine in fixed point: `t - (t x^2 / ((2k+2)(2k+3)) - …)`, `x2` the square of
the argument (log 10). -/
def sineSeries (x2 : Nat) : Nat → Nat → Nat → Int
  | 0, _, _ => 0
  | fuel + 1, k, t => (t : Int) - sineSeries x2 fuel (k + 1) (t * x2 / sineOne / ((2 * k + 2) * (2 * k + 3)))

/-- The sine of a fixed-point argument from 0 to a quarter turn, in fixed point. -/
def sineFixed (x : Nat) : Int := sineSeries (x * x / sineOne) 24 0 x

/-- `floor(WMAX * sin(2 pi p / 2^PHW) + 1/2)` (R129), the phase folded into the first quarter turn. -/
def referenceSine (c : Config) (p : Nat) : Int :=
  let half := 2 ^ c.phw / 2
  let q := p % half
  let r := if half < 2 * q then half - q else q
  let y := (2 * (wmax c : Int) * sineFixed (2 * sineHalfTurn * r / 2 ^ c.phw) + sineOne) / (2 * sineOne)
  if half ≤ p % 2 ^ c.phw then -y else y

/-- `v` held to the range `-w .. w`: the bound of R129. -/
def clampTo (w : Nat) (v : Int) : Int := max (-(w : Int)) (min (w : Int) v)

/-- `Wave(p)` (R129): the configured waveform, bounded by `WMAX`. -/
def wave (c : Config) (p : Nat) : Int :=
  match c.wave with
  | .anyWave => clampTo (wmax c) (Config.freeWave p)
  | .referenceSine => clampTo (wmax c) (referenceSine c p)

/-! ## The output sample (R130) -/

/-- The sample at offset `k` of a symbol that carries bit `b` (R130); 0 for `AMP_ONE` = 0, which R11 excludes
(DESIGN CHOICE, log 23). -/
def toneSample (s : State) (b : Bool) (k : Nat) : Int :=
  let e := envelope s.cfg.tsym.toNat s.cfg.ramp.toNat k
  let w := wave s.config (phase s.config (toneFrequency s b) k)
  tdiv (s.mgain.toNat * e.1 * w) (s.config.ampOne * e.2)

/-- `ToneOut()` in Transmitting: silence in the guard interval, else the sample of the symbol in
flight (R130). -/
def toneOutTransmitting (s : State) : Except Fault Int :=
  if s.nsym * s.cfg.tsym.toNat ≤ s.txcnt then .ok 0
  else
    match textBit s (s.txcnt / s.cfg.tsym.toNat) with
    | none => .error (.txbufUnwritten (s.txcnt / s.cfg.tsym.toNat / 8))
    | some b => .ok (toneSample s b (s.txcnt % s.cfg.tsym.toNat))

/-- `ToneOut()`, the output sample of a tick step (R130). -/
def toneOut (s : State) : Except Fault Int :=
  match s.mode with
  | .idle => .ok 0
  | .transmitting => toneOutTransmitting s
  | .listening => .ok 0

/-! ## Completion and the transmit timer (R133, R70) -/

/-- `TxComplete()` (R133). -/
def txComplete (s : State) : State := setEvents evTxdone (endTransmit s)

/-- `TXCNT <- TXCNT + 1` (R70). -/
def countTx (s : State) : State := { s with txcnt := s.txcnt + 1 }

/-- Branch 2 of the tick step: count, and complete at `NSYM * TSYM + GUARD` (R70). -/
def transmitTimer (s : State) : State :=
  if s.txcnt + 1 = s.nsym * s.cfg.tsym.toNat + s.config.guardTicks then
    txComplete (countTx s)
  else countTx s

/-! ## Commands -/

/-- What an accepted `TRANSMIT` writes (R122). -/
def startTransmit (s : State) : State :=
  { s with
    nsym := 8 * s.txlen
    t0 := s.clk
    txcnt := 0
    mgain := if 0 < s.txlen then s.cfg.amp else 0
    mode := .transmitting }

/-- `TRANSMIT`: start sending the text in `TXBUF` (R122). DESIGN CHOICE (log 21): a symbol count of 2^32 or
more, which only a `TXBUF_LEN` of 2^29 or more allows, is responded mod 2^32. -/
def execTransmit (s : State) : Result :=
  if s.mode ≠ .idle then raise .busy s
  else if s.port.sinkRdy = false then raise .notReady s
  else
    match memReadRange s.txbuf 0 s.txlen with
    | .error j => .fault (.txbufUnwritten j)
    | .ok text =>
      if text.all isAscii then respond (BitVec.ofNat 32 (8 * s.txlen)) (startTransmit s)
      else raise .encodingError s

/-- `TXSTOP`: stop a transmission; a no-op in every other mode (R134). -/
def execTxstop (s : State) : Result :=
  match s.mode with
  | .transmitting => respond 1 (endTransmit s)
  | .idle => respond 0 s
  | .listening => respond 0 s

end Sys2Proof.Machine
end

