-- ==== Sys2Proof/Machine/Tick.lean ====
section
/-! DEFINITION. The tick step (20_memory.md R70). -/

namespace Sys2Proof.Machine

/-- Branches 2 and 3 of the tick step: the timer of the session in progress (R70). -/
def timers (s : State) : State :=
  match s.mode with
  | .idle => s
  | .transmitting => transmitTimer s
  | .listening => pollTimer s

/-- `CLK <- (CLK + 1) mod 2^CLKW` (R49, R70). -/
def advanceClk (s : State) : State := { s with clk := (s.clk + 1) % 2 ^ s.config.clkw }

/-- Drive `out_sample` in this tick step (R48, R130; log 5). -/
def driveOut (o : Int) (s : State) : State := { s with out := o }

/-- One tick step (R70): output sample, timers, clock, in that order. -/
def tick (s : State) : Result :=
  match toneOut s with
  | .error f => .fault f
  | .ok o => .next (advanceClk (timers (driveOut o s)))

end Sys2Proof.Machine
end

