-- ==== Sys2Proof/Machine/Dispatch.lean ====
section
/-! DEFINITION. The command step of a decoded command: one arm per constructor of Instr. -/

namespace Sys2Proof.Machine

def exec (i : Instr) (s : State) : Host.Outcome State Fault Refusal :=
  match i with
  | .nop => Sys2Proof.Machine.execNop s
  | .setcfg r v => Sys2Proof.Machine.execSetcfg r v s
  | .getcfg r => Sys2Proof.Machine.execGetcfg r s
  | .txput c => Sys2Proof.Machine.execTxput c s
  | .txclr => Sys2Proof.Machine.execTxclr s
  | .transmit => Sys2Proof.Machine.execTransmit s
  | .txstop => Sys2Proof.Machine.execTxstop s
  | .listen => Sys2Proof.Machine.execListen s
  | .rxstop => Sys2Proof.Machine.execRxstop s
  | .rxget => Sys2Proof.Machine.execRxget s
  | .getsr n => Sys2Proof.Machine.execGetsr n s
  | .evclr m => Sys2Proof.Machine.execEvclr m s
  | .irqen m => Sys2Proof.Machine.execIrqen m s

end Sys2Proof.Machine
end

