-- ==== Sys2Proof/Machine/Step.lean ====
section
/-! DEFINITION. One step of the machine is one clock period (20_memory.md R71): a reset period (R240), or
at most one command step and then exactly one tick step. -/

namespace Sys2Proof.Machine

/-- The command step of a period in which the word `w` is presented: a word of no row is answered
`IllegalCommand` (R86). -/
def commandWord (w : Word) (s : State) : Host.Outcome State Fault Refusal :=
  match decode w with
  | none => raise .illegalCommand s
  | some i => exec i s

/-- The command part of a period: nothing but an unanswered response port if no word is presented
(R80). -/
def commandPart (s : State) : Host.Outcome State Fault Refusal :=
  match fetch s with
  | none => .next (noResponse s)
  | some w => commandWord w s

/-- One clock period. -/
def step (s : State) : Host.Outcome State Fault Refusal :=
  if s.port.rst then .next (nextPeriod (resetBlock s))
  else andThen (commandPart s) (fun t => andThen (tick t) (fun u => .next (nextPeriod u)))

/-- `s` with the given word at the command port of its next period, bit 0 the least significant; every
bit from `nbits` up is 0 (log 15). -/
def State.withFetchWord (s : State) (nbits w : Nat) : State :=
  withCommand (BitVec.ofNat 32 (w % 2 ^ nbits)) s

end Sys2Proof.Machine
end

