-- ==== Sys2Proof/Machine/Assembler.lean ====
section
/-! DEFINITION. The assembler notation of 30_encoding.md R92, over lists of characters: a mnemonic, its
operands separated by commas, `;` before a comment. DESIGN CHOICE (log 20): mnemonics and names are
written in capitals as R92 writes them, and blanks around an operand do not count. -/

namespace Sys2Proof.Machine

/-- A line without its comment; a quoted character is no comment sign (R92). -/
def stripComment : List Char → List Char
  | [] => []
  | '\'' :: x :: '\'' :: rest => '\'' :: x :: '\'' :: stripComment rest
  | c :: rest => if c = ';' then [] else c :: stripComment rest

/-- The characters without blanks at either end. -/
def trimBlanks (cs : List Char) : List Char :=
  ((cs.dropWhile (· = ' ')).reverse.dropWhile (· = ' ')).reverse

/-- The parts of a list between the separators `sep`. -/
def splitAtChar (sep : Char) : List Char → List (List Char)
  | [] => [[]]
  | c :: rest =>
    if c = sep then [] :: splitAtChar sep rest
    else
      match splitAtChar sep rest with
      | [] => [[c]]
      | part :: parts => (c :: part) :: parts

/-- The value of a digit in base 16 or below. -/
def digitValue (base : Nat) (c : Char) : Option Nat :=
  let n := c.toNat
  let v :=
    if 48 ≤ n ∧ n ≤ 57 then n - 48
    else if 65 ≤ n ∧ n ≤ 70 then n - 55
    else if 97 ≤ n ∧ n ≤ 102 then n - 87
    else 16
  if v < base then some v else none

/-- The number the digits write in the base, after `acc`. -/
def digitsValue (base : Nat) : Nat → List Char → Option Nat
  | acc, [] => some acc
  | acc, c :: rest => (digitValue base c).bind (fun v => digitsValue base (acc * base + v) rest)

/-- A number: decimal, or hexadecimal after `0x` (R92). -/
def parseNumber : List Char → Option Nat
  | [] => none
  | ['0', 'x'] => none
  | '0' :: 'x' :: ds => digitsValue 16 0 ds
  | ds => digitsValue 10 0 ds

/-- A number below `bound`. -/
def parseBelow (bound : Nat) (cs : List Char) : Option Nat :=
  (parseNumber cs).bind (fun n => if n < bound then some n else none)

/-- The position of a name in a list of names. -/
def nameIndex (names : List (List Char)) (cs : List Char) : Option Nat :=
  let i := names.findIdx (· = cs)
  if i < names.length then some i else none

/-- The names of the configuration registers, in number order (R92). -/
def cfgNames : List (List Char) :=
  [['F', '0'], ['D', 'E', 'L', 'T', 'A'], ['T', 'S', 'Y', 'M'], ['A', 'M', 'P'],
   ['R', 'A', 'M', 'P'], ['D', 'E', 'T', 'T', 'H'], ['P', 'O', 'L', 'L'], ['N', 'B', 'I', 'N', 'S']]

/-- The names of the status registers, in number order (R92). -/
def statusNames : List (List Char) :=
  [['I', 'D'], ['S', 'T', 'A', 'T', 'E'], ['F', 'L', 'A', 'G', 'S'], ['E', 'V', 'E', 'N', 'T', 'S'],
   ['I', 'R', 'Q', 'E', 'N'], ['E', 'R', 'R'], ['T', 'X', 'L', 'E', 'N'], ['T', 'X', 'S', 'Y', 'M'],
   ['R', 'E', 'A', 'D', 'I', 'N', 'G'], ['R', 'X', 'A', 'C', 'C'], ['R', 'X', 'L', 'V', 'L'],
   ['C', 'L', 'K', 'L', 'O'], ['C', 'L', 'K', 'H', 'I'], ['T', '0', 'L', 'O'], ['T', '0', 'H', 'I'],
   ['T', 'I', 'C', 'K', 'C', 'N', 'T']]

/-- The names of the event bits, in bit order (R92). -/
def eventNames : List (List Char) :=
  [['M', 'S', 'G'], ['E', 'R', 'R'], ['T', 'X', 'D', 'O', 'N', 'E'], ['F', 'R', 'E', 'Q']]

/-- A configuration register by number 0 to 7 or by name (R92). -/
def parseCfgReg (cs : List Char) : Option (BitVec 4) :=
  ((nameIndex cfgNames cs).orElse (fun _ => parseBelow 8 cs)).map (BitVec.ofNat 4)

/-- A status register by number 0 to 15 or by name (R92). -/
def parseStatusReg (cs : List Char) : Option (BitVec 4) :=
  ((nameIndex statusNames cs).orElse (fun _ => parseBelow 16 cs)).map (BitVec.ofNat 4)

/-- The value of `SETCFG`: a number, or a negative decimal for `DETTH` only, `v mod 2^24` (R92). -/
def parseCfgValue (r : BitVec 4) : List Char → Option CfgWord
  | '-' :: ds =>
    if r = 5 then (digitsValue 10 0 ds).bind (fun n => if ds ≠ [] ∧ n ≤ 2 ^ 23 then some (BitVec.ofInt 24 (-n)) else none)
    else none
  | cs => (parseBelow (2 ^ 24) cs).map (BitVec.ofNat 24)

/-- A character operand: a quoted 7-bit ASCII character, or a code 0 to 255 (R92). -/
def parseChar : List Char → Option Byte
  | ['\'', c, '\''] => if c.toNat < 0x80 then some (BitVec.ofNat 8 c.toNat) else none
  | cs => (parseBelow 256 cs).map (BitVec.ofNat 8)

/-- The mask of a list of event names. -/
def maskOfNames : List (List Char) → Option (BitVec 4)
  | [] => some 0
  | n :: rest =>
    (nameIndex eventNames (trimBlanks n)).bind (fun i => (maskOfNames rest).map (fun m => m ||| (1 <<< i)))

/-- An event mask: a number 0 to 15, or names separated by `|` (R92). -/
def parseMask (cs : List Char) : Option (BitVec 4) :=
  ((parseBelow 16 cs).map (BitVec.ofNat 4)).orElse (fun _ => maskOfNames (splitAtChar '|' cs))

/-- The operands after the mnemonic, none if there are none. -/
def operandsOf (cs : List Char) : List (List Char) :=
  if trimBlanks cs = [] then [] else (splitAtChar ',' cs).map trimBlanks

/-- The command of one assembler line (R92). The operand of `TXPUT` is taken whole, so that a quoted
comma is a character. -/
def assembleInstr (line : List Char) : Option Instr :=
  let text := trimBlanks (stripComment line)
  let mnemonic := text.takeWhile (· ≠ ' ')
  let tail := text.drop mnemonic.length
  match mnemonic, operandsOf tail with
  | ['N', 'O', 'P'], [] => some .nop
  | ['S', 'E', 'T', 'C', 'F', 'G'], [r, v] =>
    (parseCfgReg r).bind (fun r => (parseCfgValue r v).map (fun v => .setcfg r v))
  | ['G', 'E', 'T', 'C', 'F', 'G'], [r] => (parseCfgReg r).map .getcfg
  | ['T', 'X', 'P', 'U', 'T'], _ :: _ => (parseChar (trimBlanks tail)).map .txput
  | ['T', 'X', 'C', 'L', 'R'], [] => some .txclr
  | ['T', 'R', 'A', 'N', 'S', 'M', 'I', 'T'], [] => some .transmit
  | ['T', 'X', 'S', 'T', 'O', 'P'], [] => some .txstop
  | ['L', 'I', 'S', 'T', 'E', 'N'], [] => some .listen
  | ['R', 'X', 'S', 'T', 'O', 'P'], [] => some .rxstop
  | ['R', 'X', 'G', 'E', 'T'], [] => some .rxget
  | ['G', 'E', 'T', 'S', 'R'], [n] => (parseStatusReg n).map .getsr
  | ['E', 'V', 'C', 'L', 'R'], [m] => (parseMask m).map .evclr
  | ['I', 'R', 'Q', 'E', 'N'], [m] => (parseMask m).map .irqen
  | _, _ => none

/-- The word of one assembler line (R92). -/
def assemble (line : List Char) : Option Word := (assembleInstr line).map encode

end Sys2Proof.Machine
end

