-- ==== Sys2Proof/Machine/Script.lean ====
section
/-! DEFINITION. The pseudo-instructions and the script directives of 30_encoding.md R93. They are the
host's and the environment's side of a run: each command line occupies one clock period. -/

namespace Sys2Proof.Machine

/-! ## Pseudo-instructions -/

/-- `SENDTEXT "c1 … cn"`: `TXCLR`, the `TXPUT`s, `TRANSMIT` (R93). -/
def sendText (text : List Byte) : List Instr := .txclr :: (text.map .txput ++ [.transmit])

/-- `STOP`: `TXSTOP`, `RXSTOP` (R93). -/
def stopBoth : List Instr := [.txstop, .rxstop]

/-- `GETCLK`: `GETSR CLKLO`, `GETSR CLKHI` (R93). -/
def getClk : List Instr := [.getsr 11, .getsr 12]

/-- Run an expansion, one command a period; it stops after the first command whose status is not `OK`,
and the response port then holds that status (R93). -/
def runExpansion : List Instr → State → Result
  | [], s => .next s
  | i :: rest, s =>
    match step (withCommand (encode i) s) with
    | .next t => if t.rsp.status = 0 then runExpansion rest t else .next t
    | .fault r => .fault r
    | .refused r => .refused r

/-! ## Directives -/

/-- One line of a test script: a command, or a directive of R93. -/
inductive ScriptLine
  | command (w : Word)
  | wait (n : Nat)
  | pins (sinkRdy inOk : Bool)
  | frame (samples : List Nat)
  deriving DecidableEq, Repr

/-- What a script carries from line to line: the machine, the levels at which the environment holds the
pins, and the frames it has still to deliver. -/
structure ScriptState where
  machine : State
  sinkRdy : Bool
  inOk : Bool
  frames : List (List Nat)
  deriving DecidableEq, Repr

/-- The frame the environment delivers next; samples a frame does not give are 0, and without a `FRAME`
line the frame is all zero (R93, program P2). -/
def scriptFrame (c : ScriptState) : List Nat :=
  (c.frames.headD [] ++ List.replicate c.machine.cfg.nbins.toNat 0).take c.machine.cfg.nbins.toNat

/-- The machine with the script's inputs at its ports. -/
def scriptInputs (cmd : Option Word) (c : ScriptState) : State :=
  { c.machine with
    port := { rst := false, cmd := cmd, sinkRdy := c.sinkRdy, inOk := c.inOk, frame := scriptFrame c } }

/-- The tick step of this period captures a frame: a detection tick with `in_ok` = 1 (R154). -/
def capturesFrame (s : State) : Bool :=
  match commandPart s with
  | .next t => t.mode == .listening && detectionDue t && t.port.inOk
  | .fault _ => false
  | .refused _ => false

/-- One period of a script; a frame is used up by the detection tick that captures it (log 20). -/
def scriptPeriod (cmd : Option Word) (c : ScriptState) : Option ScriptState :=
  let s := scriptInputs cmd c
  match step s with
  | .next t => some { c with machine := t, frames := if capturesFrame s then c.frames.tail else c.frames }
  | .fault _ => none
  | .refused _ => none

/-- `n` periods without a command: `WAIT n` (R93). -/
def scriptWait : Nat → ScriptState → Option ScriptState
  | 0, c => some c
  | n + 1, c => (scriptPeriod none c).bind (scriptWait n)

/-- One line of a script (R93). -/
def runLine (line : ScriptLine) (c : ScriptState) : Option ScriptState :=
  match line with
  | .command w => scriptPeriod (some w) c
  | .wait n => scriptWait n c
  | .pins a b => some { c with sinkRdy := a, inOk := b }
  | .frame f => some { c with frames := c.frames ++ [f] }

end Sys2Proof.Machine
end

