-- ==== Sys2Proof/Safety.lean ====
section
/-! DEFINITION. What holds after reset and after every step (10_state.md R57), and what a safe step is
(R78, R224). -/

namespace Sys2Proof

open Sys2Proof.Machine

/-- R57 (b): outside a transmission `TXCNT`, `NSYM` and `MGAIN` are 0. -/
abbrev TransmitIdle (s : State) : Prop := s.mode ≠ .transmitting → s.txcnt = 0 ∧ s.nsym = 0 ∧ s.mgain = 0

/-- R57 (c): the transmit position, the plan's length, the shared gain and the clock during a
transmission. -/
abbrev TransmitConsistent (s : State) : Prop :=
  s.mode = .transmitting →
    s.txcnt < s.nsym * s.cfg.tsym.toNat + s.config.guardTicks ∧ s.nsym = 8 * s.txlen ∧
    s.mgain = (if 0 < s.nsym then s.cfg.amp else 0) ∧ s.clk = (s.t0 + s.txcnt) % 2 ^ s.config.clkw

/-- R57 (d): outside a listen session `TICKCNT`, `RXCNT` and `RXSHIFT` are 0. -/
abbrev ListenIdle (s : State) : Prop := s.mode ≠ .listening → s.tickcnt = 0 ∧ s.rxcnt = 0 ∧ s.rxshift = 0

/-- R57 (e): the poll timer stays below `POLL`. -/
abbrev PollBelow (s : State) : Prop := s.mode = .listening → s.tickcnt.toNat < s.cfg.poll.toNat

/-- R57 (f): the accumulator holds only its low `RXCNT` bits. -/
abbrev AccumulatorBits (s : State) : Prop := s.rxshift.toNat < 2 ^ s.rxcnt.toNat

/-- R57 (g): the text fits `TXBUF`, and every cell below `TXLEN` was written. -/
abbrev TextWritten (s : State) : Prop :=
  s.txlen ≤ s.config.txbufLen ∧ ∀ j < s.txlen, (memRead s.txbuf j).isSome

/-- R57 (h): the queue holds at most `RXFIFO_DEPTH` characters. -/
abbrev QueueBounded (s : State) : Prop := s.rxfifo.length ≤ s.config.rxfifoDepth

/-- R57 (i): every configuration register holds a legal value. -/
def ConfigLegal (s : State) : Prop := ∀ r : CfgReg, legal s.config r (cfgRead r s) = true

/-- The widths of R30, R32, R38 and R49 that the types do not say: `CLK` and `T0` fit `CLKW` bits, the
reading's bin is below `NBINS_MAX` and its magnitude at most `MAGMAX`. -/
abbrev WidthsHold (s : State) : Prop :=
  s.clk < 2 ^ s.config.clkw ∧ s.t0 < 2 ^ s.config.clkw ∧
  s.reading.bin < s.config.nbinsMax ∧ s.reading.mag ≤ magmax s.config

/-- Both memories are in canonical form. -/
abbrev MemoriesCanonical (s : State) : Prop := Memory.wf s.txbuf ∧ Memory.wf s.frame

/-- The invariant: the parameters are legal (R11), R57 (b) to (i), the widths and the canonical form.
R57 (a) is the type of `mode`. -/
structure Inv (s : State) : Prop where
  params : s.config.Legal
  transmitIdle : TransmitIdle s
  transmit : TransmitConsistent s
  listenIdle : ListenIdle s
  poll : PollBelow s
  accumulator : AccumulatorBits s
  text : TextWritten s
  queue : QueueBounded s
  config : ConfigLegal s
  widths : WidthsHold s
  memories : MemoriesCanonical s

/-- A step that does not stop: nothing in the block is fatal (R224). -/
abbrev Completes (s : State) : Prop := ∃ t, step s = .next t

/-- `n` clock periods from `s` (R71). -/
def runSteps : Nat → State → Result
  | 0, s => .next s
  | n + 1, s => andThen (runSteps n s) step

/-- The periods to come present no command and no reset; pins and frames are any (R80). -/
abbrev QuietFuture (s : State) : Prop := ∀ p ∈ s.future, p.rst = false ∧ p.cmd = none

/-! ## Words the statements use -/

/-- `s` with the response (status, data) at the port and nothing else changed (R85, R211). -/
abbrev Answered (status : BitVec 8) (data : Word) (s : State) : State :=
  { s with rspValid := true, rsp := { status := status, data := data } }

/-- A word with the `op` of `value` that is no word of the row (`mask`, `value`) is no command (R84,
R88). -/
abbrev NoOtherWordOfItsOp (mask value : Word) : Prop :=
  ∀ w : Word, w >>> 28 = value >>> 28 → w &&& mask ≠ value → decode w = none

/-- Every `TXBUF` cell below `TXLEN` holds a 7-bit ASCII character (R107). -/
abbrev AsciiText (s : State) : Prop := ∀ j < s.txlen, ∃ c, memRead s.txbuf j = some c ∧ c.toNat < 0x80

/-- The envelope of R127 as a rational gain. -/
def envelopeGain (tsym ramp k : Nat) : ℚ := ((envelope tsym ramp k).1 : ℚ) / ((envelope tsym ramp k).2 : ℚ)

/-- `freq(k) = k * FS / (2 * NBINS)`, the exact frequency of a bin in Hz (R161). -/
def binFrequency (s : State) (k : Nat) : ℚ := (k * s.config.fs : ℚ) / (2 * s.cfg.nbins.toNat : ℚ)

/-- The bits classified one after the other, from the first to the last (R174). -/
def accumulateAll (bits : List Bool) (s : State) : State := bits.foldl (fun t b => accumulate b t) s

end Sys2Proof
end

