-- ==== Sys2Proof/Certificates/Slice0/Obligations.lean ====
section
/-! DEFINITION. The statements for the provers: the numbered rules of spec/ that say what a command, the
tick step or the whole block does. -/

open Sys2Proof Sys2Proof.Machine

/-! ## Encoding (30_encoding.md) -/

/-- R82, R84: no bit of an encoding is dropped, for every command at every operand value. -/
def Obligations.DecodeOfEncodeIsTheCommand : Prop :=
  ∀ i : Instr, i.wellFormed = true → decode (encode i) = some i

/-- R86, R88: a word that decodes is the word of its command, so no reserved bit is ignored. -/
def Obligations.EncodeOfDecodeIsTheWord : Prop :=
  ∀ (w : Word) (i : Instr), decode w = some i → encode i = w ∧ i.wellFormed = true

/-- R84: a word is the command of a row exactly when `(w AND mask) = match`; the rows are disjoint. -/
def Obligations.CommandRowsAreMaskAndMatch : Prop :=
  (∀ row ∈ opcodeRows, ∀ w : Word,
    w &&& row.mask = row.value ↔ ∃ i, decode w = some i ∧ i.mnemonic = row.mnemonic) ∧
  opcodeRows.Pairwise (fun p q => ∀ w : Word, ¬ (w &&& p.mask = p.value ∧ w &&& q.mask = q.value))

/-- R86: every word matches exactly one row and is run as that command, or matches none and is answered
`IllegalCommand` with no change of state. -/
def Obligations.EveryWordIsOneCommandOrIllegal : Prop :=
  ∀ w : Word,
    ((∃ row ∈ opcodeRows, w &&& row.mask = row.value ∧
        (∀ q ∈ opcodeRows, w &&& q.mask = q.value → q = row) ∧
        ∃ i, decode w = some i ∧ i.mnemonic = row.mnemonic ∧
          ∀ s : State, s.port.cmd = some w → commandPart s = exec i s) ∨
      ((∀ q ∈ opcodeRows, w &&& q.mask ≠ q.value) ∧ decode w = none ∧
        ∀ s : State, s.port.cmd = some w → commandPart s = .next (Answered 0x10 0 s)))

/-- R87, R90: a word whose `op` is 0xD, 0xE or 0xF, and a `SETCFG` or `GETCFG` word with bit 27 set, is
answered `IllegalCommand`, in every mode and with every value; all sixteen status register numbers are
legal. A term with a register number above 7, which no word decodes to, is answered so too (log 14). -/
def Obligations.ReservedEncodingsAreIllegal : Prop :=
  (∀ (w : Word) (s : State), 0xD ≤ (w >>> 28).toNat → s.port.cmd = some w →
    decode w = none ∧ commandPart s = .next (Answered 0x10 0 s)) ∧
  (∀ (w : Word) (s : State), (w >>> 28 = 1 ∨ w >>> 28 = 2) → w.getLsbD 27 = true → s.port.cmd = some w →
    decode w = none ∧ commandPart s = .next (Answered 0x10 0 s)) ∧
  (∀ n : BitVec 4, decode (0xA0000000 ||| (n.zeroExtend 32 <<< 24)) = some (.getsr n)) ∧
  (∀ r : BitVec 4, 8 ≤ r.toNat → ∀ (v : CfgWord) (s : State),
    exec (.setcfg r v) s = .next (Answered 0x10 0 s) ∧ exec (.getcfg r) s = .next (Answered 0x10 0 s))

/-- Words written out in 30_encoding.md R92 and 95_test_vectors.md V20 to V38. -/
def Obligations.WordsOfTheSpecDecode : Prop :=
  decode 0x00000000 = some .nop ∧ decode 0x10004650 = some (.setcfg 0 18000) ∧
  decode 0x15FFFFE2 = some (.setcfg 5 0xFFFFE2) ∧ decode 0x27000000 = some (.getcfg 7) ∧
  decode 0x30000048 = some (.txput 0x48) ∧ decode 0xA1000000 = some (.getsr 1) ∧
  decode 0xB0000005 = some (.evclr 5) ∧ decode 0xC0000003 = some (.irqen 3) ∧
  decode 0xFFFFFFFF = none ∧ decode 0x18000000 = none ∧ decode 0x30000148 = none

/-! ## The step (20_memory.md R70, R71; 70_reset_and_hazards.md R240) -/

/-- R71, R86: a period that presents a command word runs the decoded command, then exactly one tick step, then
the next period's inputs arrive. One that presents a word of no command answers `IllegalCommand`, and its tick
step and the next inputs come all the same. Every period without reset is its command part, then the tick
step, then the next inputs. -/
def Obligations.StepRunsTheDecodedCommand : Prop :=
  (∀ (s : State) (w : Word) (i : Instr), s.port.rst = false → s.port.cmd = some w → decode w = some i →
    step s = andThen (exec i s) (fun t => andThen (tick t) (fun u => .next (nextPeriod u)))) ∧
  (∀ (s : State) (w : Word), s.port.rst = false → s.port.cmd = some w → decode w = none →
    step s = andThen (tick (Answered 0x10 0 s)) (fun u => .next (nextPeriod u))) ∧
  ∀ s : State, s.port.rst = false →
    step s = andThen (commandPart s) (fun t => andThen (tick t) (fun u => .next (nextPeriod u)))

/-- R80: a period without a command word executes only the tick step. The level of the response port in
it is the model's free value (log 4). -/
def Obligations.PeriodWithoutCommandOnlyTicks : Prop :=
  ∀ s : State, s.port.rst = false → s.port.cmd = none →
    ∃ status data, step s =
      andThen (tick { s with rspValid := false, rsp := { status := status, data := data } })
        (fun u => .next (nextPeriod u))

/-- R72, R8: the end of a period changes nothing but the inputs: it brings the first listed inputs to the
port, and every write of the period stands. That inputs beyond the list have no reset and no command, with
free pins and a free frame, and that the counter of free values advances, is the model's choice (log 2). After
every step, a reset period's too, the port holds the next period's inputs. -/
def Obligations.PeriodEndBringsTheNextInputs : Prop :=
  (∀ (s : State) (p : InputPorts) (rest : List InputPorts), s.future = p :: rest →
    nextPeriod s = { s with port := p, future := rest, draws := s.draws + 1 }) ∧
  (∀ s : State, s.future = [] → ∃ p : InputPorts, p.rst = false ∧ p.cmd = none ∧
    nextPeriod s = { s with port := p, draws := s.draws + 1 }) ∧
  ∀ s t : State, step s = .next t →
    t.draws = s.draws + 1 ∧
    (∀ (p : InputPorts) (rest : List InputPorts), s.future = p :: rest → t.port = p ∧ t.future = rest) ∧
    (s.future = [] → t.port.rst = false ∧ t.port.cmd = none ∧ t.future = [])

/-- R240, R56: a period with `rst` = 1 puts every piece of state at its reset value, whatever was going on
and whatever command is presented; with the reference parameters the configuration registers hold the
numbers of R56. -/
def Obligations.ResetPeriodGivesTheResetValues : Prop :=
  ∀ s : State, s.port.rst = true → ∃ t, step s = .next t ∧
    t.cfg.f0.toNat = 18000 ∧ t.cfg.delta.toNat = 1000 ∧ sext24 t.cfg.detth = -30 ∧ t.cfg.nbins.toNat = 1024 ∧
    (s.config = Config.reference →
      t.cfg.tsym.toNat = 96 ∧ t.cfg.amp.toNat = 9830 ∧ t.cfg.ramp.toNat = 480 ∧ t.cfg.poll.toNat = 4800) ∧
    t.mode = .idle ∧ t.mgain = 0 ∧ t.txcnt = 0 ∧ t.nsym = 0 ∧ t.t0 = 0 ∧ t.txlen = 0 ∧ t.tickcnt = 0 ∧
    t.rxshift = 0 ∧ t.rxcnt = 0 ∧ t.reading = ⟨false, 0, 0⟩ ∧ t.events = 0 ∧ t.irqen = 0 ∧ t.err = 0 ∧
    t.clk = 0 ∧ t.clkhiLatch = 0 ∧ t.rxfifo = [] ∧ t.out = 0 ∧ irq t = false ∧ t.rspValid = false ∧
    t.rsp = ⟨0, 0⟩

/-- R57 holds right after reset. -/
def Obligations.InvariantHoldsAtReset : Prop := Inv State.reset

/-- R57 holds after every step from a state in which it holds. -/
def Obligations.EveryStepKeepsTheInvariant : Prop := ∀ s t : State, Inv s → step s = .next t → Inv t

/-- R224, R78: no step from a state with the invariant stops; no access is out of range and none reads an
unwritten cell. -/
def Obligations.EveryStepCompletes : Prop := ∀ s : State, Inv s → Completes s

/-- The canonical form of both memories is kept from every state, the invariant or not. -/
def Obligations.MemoriesStayCanonical : Prop :=
  ∀ s t : State, MemoriesCanonical s → step s = .next t → MemoriesCanonical t

/-- R49: every period counts `CLK` up by one, in every mode, and wraps it at `2^CLKW`; no command writes it;
reset makes it 0. No step changes a build parameter (R10). -/
def Obligations.ClockCountsEveryPeriod : Prop :=
  (∀ s t : State, step s = .next t →
    t.config = s.config ∧
    (s.port.rst = false → t.clk = (s.clk + 1) % 2 ^ s.config.clkw) ∧
    (s.port.rst = true → t.clk = 0)) ∧
  ∀ (i : Instr) (s t : State), exec i s = .next t → t.clk = s.clk

/-! ## Commands -/

/-- R185: `NOP`, the all-zero word, does nothing, in every mode. -/
def Obligations.NopDoesNothing : Prop :=
  decode 0x00000000 = some .nop ∧ NoOtherWordOfItsOp 0xFFFFFFFF 0x00000000 ∧
  ∀ s : State, exec .nop s = .next (Answered 0 0 s)

/-- R186: `SETCFG` answers `Locked` outside Idle, then `BadValue` for an illegal value; else it writes that
register, leaves the seven others and everything else, and responds the value. The legal values are those
R186 lists. -/
def Obligations.SetcfgWritesOneRegister : Prop :=
  (∀ (r : BitVec 4) (v : CfgWord), r.toNat < 8 →
    decode (0x10000000 ||| (r.zeroExtend 32 <<< 24) ||| v.zeroExtend 32) = some (.setcfg r v)) ∧
  NoOtherWordOfItsOp 0xF8000000 0x10000000 ∧
  (∀ (c : Config) (v : CfgWord),
    (legal c .f0 v = true ↔ 1 ≤ v.toNat) ∧ legal c .delta v = true ∧ (legal c .tsym v = true ↔ 1 ≤ v.toNat) ∧
    (legal c .amp v = true ↔ v.toNat ≤ c.ampOne) ∧ legal c .ramp v = true ∧
    (legal c .detth v = true ↔ v.toNat = 0 ∨ (0xFFFF01 ≤ v.toNat ∧ v.toNat ≤ 0xFFFFFF)) ∧
    (legal c .poll v = true ↔ 1 ≤ v.toNat) ∧ (legal c .nbins v = true ↔ 1 ≤ v.toNat ∧ v.toNat ≤ c.nbinsMax)) ∧
  ∀ (r : BitVec 4) (reg : CfgReg) (v : CfgWord) (s : State), cfgRegOf r = some reg →
    (s.mode ≠ .idle → exec (.setcfg r v) s = .next (Answered 0x12 0 s)) ∧
    (s.mode = .idle → legal s.config reg v = false → exec (.setcfg r v) s = .next (Answered 0x11 0 s)) ∧
    (s.mode = .idle → legal s.config reg v = true →
      ∃ regs : CfgRegs, exec (.setcfg r v) s = .next (Answered 0 (v.zeroExtend 32) { s with cfg := regs }) ∧
        ∀ q : CfgReg, cfgRead q { s with cfg := regs } = if q = reg then v else cfgRead q s)

/-- R187, R21: `GETCFG` responds the register its number names, zero-extended, and changes nothing, in
every mode. -/
def Obligations.GetcfgReadsOneRegister : Prop :=
  (∀ r : BitVec 4, r.toNat < 8 → decode (0x20000000 ||| (r.zeroExtend 32 <<< 24)) = some (.getcfg r)) ∧
  NoOtherWordOfItsOp 0xF8FFFFFF 0x20000000 ∧
  (∀ (r : BitVec 4) (reg : CfgReg) (s : State), cfgRegOf r = some reg →
    exec (.getcfg r) s = .next (Answered 0 ((cfgRead reg s).zeroExtend 32) s)) ∧
  ∀ s : State,
    (List.range 16).map (fun n => (cfgRegOf (BitVec.ofNat 4 n)).map (fun r => cfgRead r s)) =
      [some s.cfg.f0, some s.cfg.delta, some s.cfg.tsym, some s.cfg.amp, some s.cfg.ramp, some s.cfg.detth,
        some s.cfg.poll, some s.cfg.nbins, none, none, none, none, none, none, none, none]

/-- R188, R50: `GETSR` responds the view of the state before the step, in every mode; its one side effect is
that register 11 latches `CLK[47:32]`. -/
def Obligations.GetsrReadsAView : Prop :=
  (∀ n : BitVec 4, decode (0xA0000000 ||| (n.zeroExtend 32 <<< 24)) = some (.getsr n)) ∧
  NoOtherWordOfItsOp 0xF0FFFFFF 0xA0000000 ∧
  ∀ (n : BitVec 4) (s : State),
    (n ≠ 11 → exec (.getsr n) s = .next (Answered 0 (statusRead (sregOf n) s) s)) ∧
    exec (.getsr 11) s =
      .next (Answered 0 (BitVec.ofNat 32 (s.clk % 2 ^ 32))
        { s with clkhiLatch := BitVec.ofNat 16 (s.clk / 2 ^ 32 % 2 ^ 16) })

/-- R40 to R46: what `GETSR 0` to `GETSR 7` return, bit by bit for the flags. That `TXLEN` and `TXSYM` are cut
to 32 bits, where parameters let them be larger, is the model's choice (log 17), and so is the symbol index
for `TSYM` = 0, which is never legal (log 23). -/
def Obligations.StatusRegistersZeroToSeven : Prop :=
  ∀ s : State,
    statusRead (sregOf 0) s = 0x47475731 ∧
    (statusRead (sregOf 1) s).toNat = (match s.mode with | .idle => 0 | .transmitting => 1 | .listening => 2) ∧
    (∀ k, (statusRead (sregOf 2) s).getLsbD k =
      match k with
      | 0 => s.port.sinkRdy
      | 1 => s.port.inOk
      | 2 => decide (1 ≤ s.rxfifo.length)
      | 3 => decide (s.txlen = s.config.txbufLen)
      | 4 => irq s
      | 5 => decide (s.mode = .transmitting ∧ s.txcnt < s.nsym * s.cfg.tsym.toNat)
      | _ => false) ∧
    (statusRead (sregOf 3) s).toNat = s.events.toNat ∧
    (statusRead (sregOf 4) s).toNat = s.irqen.toNat ∧
    (statusRead (sregOf 5) s).toNat = s.err.toNat ∧
    statusRead (sregOf 6) s = BitVec.ofNat 32 s.txlen ∧
    statusRead (sregOf 7) s =
      BitVec.ofNat 32 (if s.mode = .transmitting then min (s.txcnt / s.cfg.tsym.toNat) s.nsym else 0)

/-- R47: what `GETSR 8` to `GETSR 15` return, field by field. What they return where parameters make a value
larger than its field in the view is the model's choice (log 17). -/
def Obligations.StatusRegistersEightToFifteen : Prop :=
  ∀ s : State,
    (s.reading.mag < 2 ^ 15 → s.reading.bin < 2 ^ 16 →
      (statusRead (sregOf 8) s).toNat =
        bitNat s.reading.valid * 2 ^ 31 + s.reading.mag * 2 ^ 16 + s.reading.bin) ∧
    (statusRead (sregOf 9) s).toNat = s.rxcnt.toNat * 2 ^ 8 + s.rxshift.toNat ∧
    statusRead (sregOf 10) s = BitVec.ofNat 32 s.rxfifo.length ∧
    (statusRead (sregOf 11) s).toNat = s.clk % 2 ^ 32 ∧
    (statusRead (sregOf 12) s).toNat = s.clkhiLatch.toNat ∧
    (statusRead (sregOf 13) s).toNat = s.t0 % 2 ^ 32 ∧
    (statusRead (sregOf 14) s).toNat = s.t0 / 2 ^ 32 % 2 ^ 16 ∧
    (statusRead (sregOf 15) s).toNat = s.tickcnt.toNat

/-- R249, R50: `GETSR CLKLO`, then `GETSR CLKHI` in any later state with no other latching in between, give
the two halves of one value of a `CLK` of at most 48 bits. -/
def Obligations.ClockHalvesBelongTogether : Prop :=
  ∀ s t u : State, exec (.getsr 11) s = .next t → u.clkhiLatch = t.clkhiLatch → s.clk < 2 ^ 48 →
    ∃ v, exec (.getsr 12) u = .next v ∧ v.rsp.data.toNat * 2 ^ 32 + t.rsp.data.toNat = s.clk ∧
      v.clkhiLatch = u.clkhiLatch

/-- R189: `EVCLR` clears exactly the selected event bits and responds the old ones, in every mode. -/
def Obligations.EvclrClearsTheSelectedEvents : Prop :=
  (∀ m : BitVec 4, decode (0xB0000000 ||| m.zeroExtend 32) = some (.evclr m)) ∧
  NoOtherWordOfItsOp 0xFFFFFFF0 0xB0000000 ∧
  ∀ (m : BitVec 4) (s : State),
    ∃ e : BitVec 4, exec (.evclr m) s = .next (Answered 0 (s.events.zeroExtend 32) { s with events := e }) ∧
      ∀ k, e.getLsbD k = (s.events.getLsbD k && !m.getLsbD k)

/-- R190, R218: `IRQEN` replaces the whole mask and responds it, in every mode, and `irq` follows at once. -/
def Obligations.IrqenSetsTheMask : Prop :=
  (∀ m : BitVec 4, decode (0xC0000000 ||| m.zeroExtend 32) = some (.irqen m)) ∧
  NoOtherWordOfItsOp 0xFFFFFFF0 0xC0000000 ∧
  ∀ (m : BitVec 4) (s : State),
    exec (.irqen m) s = .next (Answered 0 (m.zeroExtend 32) { s with irqen := m }) ∧
    (irq { s with irqen := m } = true ↔ ∃ k < 4, s.events.getLsbD k = true ∧ m.getLsbD k = true)

/-- R104: `TXPUT` answers `Locked` outside Idle, then `BufFull`; else it writes the character at index
`TXLEN`, every other cell reads as before, and it responds the new length. That a length of 2^32 or more is
responded mod 2^32 is the model's choice (log 21). -/
def Obligations.TxputAppendsOneCharacter : Prop :=
  (∀ c : Byte, decode (0x30000000 ||| c.zeroExtend 32) = some (.txput c)) ∧
  NoOtherWordOfItsOp 0xFFFFFF00 0x30000000 ∧
  ∀ (c : Byte) (s : State),
    (s.mode ≠ .idle → exec (.txput c) s = .next (Answered 0x12 0 s)) ∧
    (s.mode = .idle → s.txlen = s.config.txbufLen → exec (.txput c) s = .next (Answered 0x13 0 s)) ∧
    (s.mode = .idle → s.txlen < s.config.txbufLen →
      ∃ cells : Memory Byte,
        exec (.txput c) s = .next (Answered 0 (BitVec.ofNat 32 (s.txlen + 1))
          { s with txbuf := cells, txlen := s.txlen + 1 }) ∧
        memRead cells s.txlen = some c ∧ ∀ a, a ≠ s.txlen → memRead cells a = memRead s.txbuf a)

/-- R105: `TXCLR` empties the text, in Idle only; nothing else changes. -/
def Obligations.TxclrEmptiesTheText : Prop :=
  decode 0x40000000 = some .txclr ∧ NoOtherWordOfItsOp 0xFFFFFFFF 0x40000000 ∧
  ∀ s : State,
    (s.mode ≠ .idle → exec .txclr s = .next (Answered 0x12 0 s)) ∧
    (s.mode = .idle → exec .txclr s = .next (Answered 0 0 { s with txlen := 0 }))

/-- R106: `RXGET` pops and responds the oldest character, in every mode; on an empty queue it answers
`RxEmpty` and pops nothing. -/
def Obligations.RxgetTakesTheOldestCharacter : Prop :=
  decode 0x90000000 = some .rxget ∧ NoOtherWordOfItsOp 0xFFFFFFFF 0x90000000 ∧
  ∀ s : State,
    (s.rxfifo = [] → exec .rxget s = .next (Answered 0x14 0 s)) ∧
    (∀ (c : Byte) (rest : List Byte), s.rxfifo = c :: rest →
      exec .rxget s = .next (Answered 0 (c.zeroExtend 32) { s with rxfifo := rest }))

/-- R122, R220: `TRANSMIT` tests `Busy`, then `NotReady`, then the text; accepted, it writes the plan's
length, start, position and gain and enters Transmitting, and responds the plan's length. That a length of
2^32 or more is responded mod 2^32 is the model's choice (log 21). -/
def Obligations.TransmitStartsThePlan : Prop :=
  decode 0x50000000 = some .transmit ∧ NoOtherWordOfItsOp 0xFFFFFFFF 0x50000000 ∧
  ∀ s : State,
    (s.mode ≠ .idle → exec .transmit s = .next (Answered 0x02 0 s)) ∧
    (s.mode = .idle → s.port.sinkRdy = false → exec .transmit s = .next (Answered 0x01 0 s)) ∧
    (s.mode = .idle → s.port.sinkRdy = true → (∀ j < s.txlen, (memRead s.txbuf j).isSome) →
      (∃ j < s.txlen, ∃ c, memRead s.txbuf j = some c ∧ 0x80 ≤ c.toNat) →
      exec .transmit s = .next (Answered 0x04 0 s)) ∧
    (s.mode = .idle → s.port.sinkRdy = true → AsciiText s →
      exec .transmit s = .next (Answered 0 (BitVec.ofNat 32 (8 * s.txlen))
        { s with
          nsym := 8 * s.txlen
          t0 := s.clk
          txcnt := 0
          mgain := if 0 < s.txlen then s.cfg.amp else 0
          mode := .transmitting }))

/-- The model's own stops (logs 6 and 7), in states no run reaches: `TRANSMIT` on a text with an unwritten
cell names the first such cell, the tick step of a transmission whose symbol lies in an unwritten cell names
that cell, and `TXPUT` beyond `TXBUF` names the index. -/
def Obligations.UnwrittenTextStopsTheModel : Prop :=
  (∀ (s : State) (j : Nat), s.mode = .idle → s.port.sinkRdy = true → j < s.txlen → memRead s.txbuf j = none →
    (∀ k < j, (memRead s.txbuf k).isSome) → exec .transmit s = .fault (.txbufUnwritten j)) ∧
  (∀ s : State, s.mode = .transmitting → s.txcnt < s.nsym * s.cfg.tsym.toNat →
    memRead s.txbuf (s.txcnt / s.cfg.tsym.toNat / 8) = none →
    tick s = .fault (.txbufUnwritten (s.txcnt / s.cfg.tsym.toNat / 8))) ∧
  (∀ (s : State) (c : Byte), s.mode = .idle → s.config.txbufLen < s.txlen →
    exec (.txput c) s = .fault (.txbufOutOfRange s.txlen))

/-- R134: `TXSTOP` ends a transmission without `TXDONE`, keeps `T0` and the text, and is a no-op in every
other mode; a second one changes nothing, and the next tick step outputs 0 and completes nothing. -/
def Obligations.TxstopEndsATransmission : Prop :=
  decode 0x60000000 = some .txstop ∧ NoOtherWordOfItsOp 0xFFFFFFFF 0x60000000 ∧
  ∀ s : State,
    (s.mode = .transmitting →
      exec .txstop s = .next (Answered 0 1 { s with mode := .idle, mgain := 0, txcnt := 0, nsym := 0 })) ∧
    (s.mode ≠ .transmitting → exec .txstop s = .next (Answered 0 0 s)) ∧
    (∀ t, exec .txstop s = .next t → exec .txstop t = .next (Answered 0 0 t)) ∧
    (∀ t, s.mode = .transmitting → exec .txstop s = .next t →
      tick t = .next { t with out := 0, clk := (t.clk + 1) % 2 ^ t.config.clkw })

/-- R151: `LISTEN` tests `Busy`, then `DeviceError`; accepted, it clears the timer, the accumulator and the
reading, enters Listening and keeps the queue, the events and the cause. -/
def Obligations.ListenStartsASession : Prop :=
  decode 0x70000000 = some .listen ∧ NoOtherWordOfItsOp 0xFFFFFFFF 0x70000000 ∧
  ∀ s : State,
    (s.mode ≠ .idle → exec .listen s = .next (Answered 0x02 0 s)) ∧
    (s.mode = .idle → s.port.inOk = false → exec .listen s = .next (Answered 0x03 0 s)) ∧
    (s.mode = .idle → s.port.inOk = true →
      exec .listen s = .next (Answered 0 0
        { s with
          tickcnt := 0
          rxcnt := 0
          rxshift := 0
          reading := { valid := false, bin := 0, mag := 0 }
          mode := .listening }))

/-- R152: `RXSTOP` ends a listen session, drops the partial character, keeps reading, queue and events, and
is a no-op in every other mode; a second one changes nothing, and the next tick step detects nothing. -/
def Obligations.RxstopEndsASession : Prop :=
  decode 0x80000000 = some .rxstop ∧ NoOtherWordOfItsOp 0xFFFFFFFF 0x80000000 ∧
  ∀ s : State,
    (s.mode = .listening →
      exec .rxstop s = .next (Answered 0 1 { s with mode := .idle, tickcnt := 0, rxcnt := 0, rxshift := 0 })) ∧
    (s.mode ≠ .listening → exec .rxstop s = .next (Answered 0 0 s)) ∧
    (∀ t, exec .rxstop s = .next t → exec .rxstop t = .next (Answered 0 0 t)) ∧
    (∀ t, s.mode = .listening → exec .rxstop s = .next t →
      tick t = .next { t with out := 0, clk := (t.clk + 1) % 2 ^ t.config.clkw })

/-- R211: a command whose status is not `OK` responds data 0 and changes no state at all. -/
def Obligations.FailedCommandChangesNothing : Prop :=
  ∀ (i : Instr) (s t : State), exec i s = .next t → t.rsp.status ≠ 0 → t = Answered t.rsp.status 0 s

/-- R198: which statuses a command can have in which mode. -/
def Obligations.CommandsByMode : Prop :=
  ∀ (i : Instr) (s t : State), i.wellFormed = true → exec i s = .next t →
    t.rspValid = true ∧
    match i with
    | .nop => t.rsp.status = 0
    | .getcfg _ => t.rsp.status = 0
    | .getsr _ => t.rsp.status = 0
    | .evclr _ => t.rsp.status = 0
    | .irqen _ => t.rsp.status = 0
    | .txstop => t.rsp.status = 0
    | .rxstop => t.rsp.status = 0
    | .rxget => t.rsp.status = 0 ∨ t.rsp.status = 0x14
    | .setcfg _ _ => if s.mode = .idle then t.rsp.status = 0 ∨ t.rsp.status = 0x11 else t.rsp.status = 0x12
    | .txput _ => if s.mode = .idle then t.rsp.status = 0 ∨ t.rsp.status = 0x13 else t.rsp.status = 0x12
    | .txclr => if s.mode = .idle then t.rsp.status = 0 else t.rsp.status = 0x12
    | .transmit =>
      if s.mode = .idle then t.rsp.status = 0 ∨ t.rsp.status = 0x01 ∨ t.rsp.status = 0x04 else t.rsp.status = 0x02
    | .listen => if s.mode = .idle then t.rsp.status = 0 ∨ t.rsp.status = 0x03 else t.rsp.status = 0x02

/-- The frame of all thirteen commands: each piece of state is written by the commands named beside it and
by no other; the command step writes neither `CLK`, `ERR`, `FRAME`, `OUT` nor the inputs (R20, R35, R50 to
R53, R61, R63, R65). -/
def Obligations.CommandsWriteOnlyTheirOwnState : Prop :=
  ∀ (i : Instr) (s t : State), exec i s = .next t →
    (t.cfg ≠ s.cfg → ∃ r v, i = .setcfg r v) ∧
    (t.txlen ≠ s.txlen → i = .txclr ∨ ∃ c, i = .txput c) ∧
    ((∀ c, i ≠ .txput c) → ∀ a, memRead t.txbuf a = memRead s.txbuf a) ∧
    (∀ a, a ≠ s.txlen → memRead t.txbuf a = memRead s.txbuf a) ∧
    (t.rxfifo ≠ s.rxfifo → i = .rxget) ∧
    (t.events ≠ s.events → ∃ m, i = .evclr m) ∧
    (t.irqen ≠ s.irqen → ∃ m, i = .irqen m) ∧
    (t.clkhiLatch ≠ s.clkhiLatch → i = .getsr 11) ∧
    (t.t0 ≠ s.t0 → i = .transmit) ∧
    (t.mode ≠ s.mode ∨ t.mgain ≠ s.mgain ∨ t.txcnt ≠ s.txcnt ∨ t.nsym ≠ s.nsym →
      i = .transmit ∨ i = .txstop ∨ (i = .listen ∨ i = .rxstop) ∧
        t.mgain = s.mgain ∧ t.txcnt = s.txcnt ∧ t.nsym = s.nsym) ∧
    (t.tickcnt ≠ s.tickcnt ∨ t.rxcnt ≠ s.rxcnt ∨ t.rxshift ≠ s.rxshift → i = .listen ∨ i = .rxstop) ∧
    (t.reading ≠ s.reading → i = .listen) ∧
    t.config = s.config ∧ t.clk = s.clk ∧ t.err = s.err ∧ t.frame = s.frame ∧ t.out = s.out ∧
    t.port = s.port ∧ t.future = s.future ∧ t.draws = s.draws

/-- R197: while a session is active `TRANSMIT` and `LISTEN` change nothing: the period ends exactly as one
without a command, but for the response `Busy`. -/
def Obligations.BusyLeavesTheSessionUntouched : Prop :=
  ∀ (w : Word) (s t : State), w = 0x50000000 ∨ w = 0x70000000 → s.mode ≠ .idle → s.port.rst = false →
    s.port.cmd = some w → step s = .next t →
    ∃ u, step { s with port := { s.port with cmd := none } } = .next u ∧ t = Answered 0x02 0 u

/-! ## The tick step and the transmitter -/

/-- R70, R133, R232: a tick step in Idle outputs 0 and advances `CLK`. One in Transmitting also counts
`TXCNT`; the one that reaches `NSYM * TSYM + GUARD` completes: Idle, gain, position and length 0, `TXDONE`
set, `T0` and the text kept. -/
def Obligations.TickCountsOrCompletesATransmission : Prop :=
  (∀ s : State, s.mode = .idle →
    tick s = .next { s with out := 0, clk := (s.clk + 1) % 2 ^ s.config.clkw }) ∧
  ∀ (s : State) (o : Int), s.mode = .transmitting → toneOut s = .ok o →
    (s.txcnt + 1 ≠ s.nsym * s.cfg.tsym.toNat + s.config.guardTicks →
      tick s = .next { s with out := o, clk := (s.clk + 1) % 2 ^ s.config.clkw, txcnt := s.txcnt + 1 }) ∧
    (s.txcnt + 1 = s.nsym * s.cfg.tsym.toNat + s.config.guardTicks →
      tick s = .next
        { s with
          out := o
          clk := (s.clk + 1) % 2 ^ s.config.clkw
          mode := .idle
          mgain := 0
          txcnt := 0
          nsym := 0
          events := s.events ||| 0b0100 })

/-- R136, R133, R137: a `TRANSMIT` accepted at `CLK` = `T0` keeps the block Transmitting for exactly
`N * TSYM + GUARD` tick steps, `N = 8 * TXLEN`, with `TXCNT` the number done, whatever the pins and frames
do meanwhile. The `n`-th tick step outputs the sample of symbol `(n - 1) div TSYM` at offset
`(n - 1) mod TSYM`, then silence in the guard interval; the last one completes with `TXDONE`. The listed
later periods are any without a command and a reset; that the periods beyond the list have neither is the
model's choice (log 2). -/
def Obligations.TransmissionTakesItsTime : Prop :=
  ∀ s : State, Inv s → s.mode = .idle → s.port.rst = false → s.port.cmd = some 0x50000000 →
    s.port.sinkRdy = true → AsciiText s → QuietFuture s →
    ∀ n, 1 ≤ n → n ≤ 8 * s.txlen * s.cfg.tsym.toNat + s.config.guardTicks →
      ∃ u, runSteps n s = .next u ∧ u.t0 = s.clk ∧ u.clk = (s.clk + n) % 2 ^ s.config.clkw ∧
        u.txlen = s.txlen ∧ u.txbuf = s.txbuf ∧
        (n < 8 * s.txlen * s.cfg.tsym.toNat + s.config.guardTicks →
          u.mode = .transmitting ∧ u.txcnt = n ∧ u.nsym = 8 * s.txlen ∧ u.events = s.events) ∧
        (n = 8 * s.txlen * s.cfg.tsym.toNat + s.config.guardTicks →
          u.mode = .idle ∧ u.mgain = 0 ∧ u.txcnt = 0 ∧ u.nsym = 0 ∧ u.events = s.events ||| 0b0100) ∧
        (n ≤ 8 * s.txlen * s.cfg.tsym.toNat →
          ∃ b, textBit s ((n - 1) / s.cfg.tsym.toNat) = some b ∧
            u.out = toneSample { s with mgain := s.cfg.amp } b ((n - 1) % s.cfg.tsym.toNat)) ∧
        (8 * s.txlen * s.cfg.tsym.toNat < n → u.out = 0)

/-- R123, R124: the plan in flight has exactly one ToneSpec per symbol, the first starts at `T0`, they
follow each other without gap or overlap, each lasts `TSYM`, and each tone is `F0` or `F0 + DELTA` by its
bit of the encoded text; with `NSYM` = 0 there is no plan. -/
def Obligations.PlanIsContiguous : Prop :=
  (∀ s : State, s.nsym = 0 → plan s = []) ∧
  ∀ (s : State) (text : List Byte) (bits : List Bool), s.nsym = 8 * s.txlen →
    memReadRange s.txbuf 0 s.txlen = .ok text → encodeText text = .ok bits →
    (plan s).length = s.nsym ∧ bits.length = s.nsym ∧
    ∀ (i : Nat) (p : ToneSpec), (plan s)[i]? = some p →
      p.start = s.t0 + i * s.cfg.tsym.toNat ∧ p.stop = p.start + s.cfg.tsym.toNat ∧
      (∀ q, (plan s)[i + 1]? = some q → p.stop = q.start) ∧
      (bits[i]? = some false → p.frequency = s.cfg.f0.toNat) ∧
      (bits[i]? = some true → p.frequency = s.cfg.f0.toNat + s.cfg.delta.toNat)

/-- R127: the envelope is `min(RAMP, k, TSYM - k) / RAMP`; with `2 * RAMP <= TSYM` it is the trapezoid; with `2 * RAMP > TSYM` it peaks at
`(TSYM div 2) / RAMP`; with `RAMP` = 0 it is 1; it is always between 0 and 1. -/
def Obligations.EnvelopeIsTheTrapezoid : Prop :=
  ∀ tsym ramp k : Nat, k < tsym →
    0 ≤ envelopeGain tsym ramp k ∧ envelopeGain tsym ramp k ≤ 1 ∧
    (ramp = 0 → envelopeGain tsym ramp k = 1) ∧
    (0 < ramp → envelopeGain tsym ramp k = (min (ramp : ℚ) (min k (tsym - k))) / ramp) ∧
    (0 < ramp → envelopeGain tsym ramp 0 = 0) ∧
    (0 < ramp → 2 * ramp ≤ tsym →
      (k ≤ ramp → envelopeGain tsym ramp k = (k : ℚ) / ramp) ∧
      (ramp ≤ k → k ≤ tsym - ramp → envelopeGain tsym ramp k = 1) ∧
      (tsym - ramp ≤ k → envelopeGain tsym ramp k = ((tsym - k : Nat) : ℚ) / ramp)) ∧
    (tsym < 2 * ramp →
      envelopeGain tsym ramp k ≤ ((tsym / 2 : Nat) : ℚ) / ramp ∧
      envelopeGain tsym ramp (tsym / 2) = ((tsym / 2 : Nat) : ℚ) / ramp)

/-- R128: the tuning word is `f * 2^PHW / FS` rounded to nearest, half up; the phase starts at 0 and each
tick adds the tuning word mod `2^PHW`. With the reference parameters the tuning words of the two tones of
the reset values are the numbers of R128. -/
def Obligations.TuningWordIsTheNearest : Prop :=
  ftw Config.reference 18000 = 1610612736 ∧ ftw Config.reference 19000 = 1700091221 ∧
  ∀ (c : Config) (f k : Nat), 0 < c.fs →
    (ftw c f : ℤ) = ⌊(f * 2 ^ c.phw : ℚ) / c.fs + 1 / 2⌋ ∧
    phase c f 0 = 0 ∧ phase c f (k + 1) = (phase c f k + ftw c f) % 2 ^ c.phw

/-- R130, R124, R129: the output sample never exceeds `WMAX`, whatever the waveform; it is 0 outside
Transmitting, in the guard interval, with gain 0, and at the start of a symbol with a ramp. Inside a symbol
it is `MGAIN / AMP_ONE` times the envelope times the waveform at the phase of the plan's own frequency,
rounded toward zero once. That the bound also holds for `AMP_ONE` = 0, which R11 excludes, is the model's choice
(log 23). -/
def Obligations.OutputFollowsThePlan : Prop :=
  (∀ (s : State) (o : Int), s.mgain.toNat ≤ s.config.ampOne → toneOut s = .ok o →
    |o| ≤ (wmax s.config : Int) ∧
    (s.mode ≠ .transmitting → o = 0) ∧
    (s.nsym * s.cfg.tsym.toNat ≤ s.txcnt → o = 0) ∧
    (s.mgain = 0 → o = 0) ∧
    (s.txcnt % s.cfg.tsym.toNat = 0 → 0 < s.cfg.ramp.toNat → o = 0)) ∧
  ∀ (s : State) (p : ToneSpec), s.mode = .transmitting → s.txcnt < s.nsym * s.cfg.tsym.toNat →
    toneSpec s (s.txcnt / s.cfg.tsym.toNat) = some p →
    p.start ≤ s.t0 + s.txcnt ∧ s.t0 + s.txcnt < p.stop ∧
    ∃ w : Int, w = wave s.config ((s.t0 + s.txcnt - p.start) * ftw s.config p.frequency % 2 ^ s.config.phw) ∧
      |w| ≤ (wmax s.config : Int) ∧
      toneOut s = .ok (tdiv
        (s.mgain.toNat * (envelope s.cfg.tsym.toNat s.cfg.ramp.toNat (s.t0 + s.txcnt - p.start)).1 * w)
        (s.config.ampOne * (envelope s.cfg.tsym.toNat s.cfg.ramp.toNat (s.t0 + s.txcnt - p.start)).2))

/-! ## The receiver -/

/-- R153: after an accepted `LISTEN` and `n` periods in all the timer reads `n mod POLL` and the session
goes on, whatever the frames and the pins do; before the `POLL`-th tick step the reading is still the
cleared one and nothing is decoded. The listed later periods are any without a command and a reset; that the
periods beyond the list have neither is the model's choice (log 2). -/
def Obligations.PollTimerIsPeriodic : Prop :=
  ∀ s : State, Inv s → s.mode = .idle → s.port.rst = false → s.port.cmd = some 0x70000000 →
    s.port.inOk = true → QuietFuture s →
    ∀ n, 1 ≤ n → ∃ u, runSteps n s = .next u ∧ u.mode = .listening ∧ u.tickcnt.toNat = n % s.cfg.poll.toNat ∧
      (n < s.cfg.poll.toNat → u.reading = ⟨false, 0, 0⟩ ∧ u.events = s.events ∧ u.rxcnt = 0 ∧ u.rxfifo = s.rxfifo)

/-- R153, R154, R156: a tick step in Listening that does not reach `POLL` only counts; one that reaches it
with `in_ok` = 0 yields no reading and posts `DeviceError`, and the session goes on with its accumulator,
queue and frame as they were. -/
def Obligations.ListenTickCountsOrPostsDeviceError : Prop :=
  ∀ s : State, s.mode = .listening →
    (s.tickcnt.toNat + 1 < s.cfg.poll.toNat →
      ∃ n : BitVec 24, n.toNat = s.tickcnt.toNat + 1 ∧
        tick s = .next { s with out := 0, clk := (s.clk + 1) % 2 ^ s.config.clkw, tickcnt := n }) ∧
    (s.tickcnt.toNat + 1 = s.cfg.poll.toNat → s.port.inOk = false →
      tick s = .next
        { s with
          out := 0
          clk := (s.clk + 1) % 2 ^ s.config.clkw
          tickcnt := 0
          reading := { valid := false, bin := 0, mag := 0 }
          err := 0x03
          events := s.events ||| 0b0010 })

/-- R154, R158, R162, R63, R170: a detection tick with `in_ok` = 1 stores the frame of the port in the cells
below `NBINS` (a sample the port's list does not give is a free value, log 11), reads its first maximum, and
marks the reading valid exactly when it is above the threshold. A valid reading sets `FREQ` and hands the
winning bin to `Classify`, which alone decides accumulator, queue, cause and the other events; an invalid one
leaves all of these as they were. The tick outputs 0, advances `CLK`, returns `TICKCNT` to 0, and changes
nothing else. -/
def Obligations.DetectionReadsTheFrame : Prop :=
  ∀ s : State, s.mode = .listening → s.tickcnt.toNat + 1 = s.cfg.poll.toNat → s.port.inOk = true →
    1 ≤ s.cfg.nbins.toNat →
    ∃ t, tick s = .next t ∧
      t = { s with
        out := 0
        clk := (s.clk + 1) % 2 ^ s.config.clkw
        tickcnt := 0
        frame := t.frame
        reading := t.reading
        rxshift := t.rxshift
        rxcnt := t.rxcnt
        rxfifo := t.rxfifo
        err := t.err
        events := t.events } ∧
      (portFrame s).length = s.cfg.nbins.toNat ∧
      (∀ x ∈ portFrame s, x ≤ magmax s.config) ∧
      (∀ k < s.cfg.nbins.toNat, memRead t.frame k = (portFrame s)[k]?) ∧
      (∀ k < s.cfg.nbins.toNat, ∀ x, s.port.frame[k]? = some x → x ≤ magmax s.config →
        memRead t.frame k = some x) ∧
      (∀ k, s.cfg.nbins.toNat ≤ k → memRead t.frame k = memRead s.frame k) ∧
      (portFrame s)[t.reading.bin]? = some t.reading.mag ∧
      (∀ x ∈ portFrame s, x ≤ t.reading.mag) ∧
      (∀ k < t.reading.bin, ∀ x, (portFrame s)[k]? = some x → x < t.reading.mag) ∧
      t.reading.valid = above s.config (sext24 s.cfg.detth) t.reading.mag ∧
      (t.reading.valid = true →
        t.events.getLsbD 3 = true ∧
        ∃ c, c = classify t.reading.bin { s with events := s.events ||| 0b1000 } ∧
          t.rxshift = c.rxshift ∧ t.rxcnt = c.rxcnt ∧ t.rxfifo = c.rxfifo ∧ t.err = c.err ∧
          t.events = c.events) ∧
      (t.reading.valid = false →
        t.rxshift = s.rxshift ∧ t.rxcnt = s.rxcnt ∧ t.rxfifo = s.rxfifo ∧ t.err = s.err ∧ t.events = s.events)

/-- R159, R160: for a magnitude above 0 the comparator is `DBK * log10(m / MAGMAX) >= D`, equality
included, with the real logarithm; a magnitude of 0 is below every threshold; and with the reference
parameters the least magnitudes that are above are those of R160's list. The range of R160 is
-255 <= `D` <= 0; that the same holds for `D` > 0, which no legal `DETTH` is, is the model's choice
(log 16). -/
def Obligations.ThresholdIsTheDecibelMeasure : Prop :=
  (∀ (c : Config) (d : Int) (m : Nat), c.Legal →
    (0 < m → (above c d m = true ↔
      (d : ℝ) ≤ (c.dbk : ℝ) * Real.logb 10 ((m : ℝ) / (magmax c : ℝ)))) ∧
    above c d 0 = false) ∧
  (∀ p ∈ ([(0, 255), (-6, 128), (-20, 26), (-30, 9), (-40, 3), (-48, 2)] : List (Int × Nat)),
    ∀ m, above Config.reference p.1 m = true ↔ p.2 ≤ m) ∧
  ∀ d : Int, d ≤ -49 → ∀ m, above Config.reference d m = true ↔ 1 ≤ m

/-- R171, R161: a bin is in the window around a centre frequency exactly when its exact frequency differs
from it by at most `TOL` Hz, both ends included. At the reset values bins 758 to 778 are bit 0, bins 800 to
821 are bit 1, and every other bin is dropped. -/
def Obligations.WindowIsTheFrequencyDistance : Prop :=
  (∀ (s : State) (k fc : Nat), 1 ≤ s.cfg.nbins.toNat →
    (inWindow s k fc = true ↔ |binFrequency s k - (fc : ℚ)| ≤ (s.config.tol : ℚ))) ∧
  ∀ s : State, s.cfg = State.reset.cfg → s.config = Config.reference → ∀ k : Nat,
    (inWindow s k 18000 = true ↔ 758 ≤ k ∧ k ≤ 778) ∧ (inWindow s k 19000 = true ↔ 800 ≤ k ∧ k ≤ 821) ∧
    classifyBin s k =
      if 758 ≤ k ∧ k ≤ 778 then some false else if 800 ≤ k ∧ k ≤ 821 then some true else none

/-- R170, R173: a valid reading in exactly one window contributes that bit, one in both or in neither
contributes none; with `DELTA` = 0 every reading is dropped, and with `2 * TOL < DELTA` none is in both. -/
def Obligations.ClassificationIsByWindow : Prop :=
  ∀ (s : State) (k : Nat),
    (∀ b, classifyBin s k = some b ↔
      inWindow s k (s.cfg.f0.toNat + bitNat b * s.cfg.delta.toNat) = true ∧
      inWindow s k (s.cfg.f0.toNat + bitNat (!b) * s.cfg.delta.toNat) = false) ∧
    (∀ b, classifyBin s k = some b → classify k s = accumulate b s) ∧
    (classifyBin s k = none → classify k s = s) ∧
    (s.cfg.delta = 0 → classifyBin s k = none) ∧
    (1 ≤ s.cfg.nbins.toNat → 2 * s.config.tol < s.cfg.delta.toNat →
      ¬ (inWindow s k s.cfg.f0.toNat = true ∧ inWindow s k (s.cfg.f0.toNat + s.cfg.delta.toNat) = true))

/-- R66, R175: a pushed character becomes the last entry and sets `MSG`, or is lost with `RxOverflow`
posted when the queue is full. -/
def Obligations.PushQueuesOrOverflows : Prop :=
  ∀ (c : Byte) (s : State),
    (s.rxfifo.length < s.config.rxfifoDepth →
      push c s = { s with rxfifo := s.rxfifo ++ [c], events := s.events ||| 0b0001 }) ∧
    (s.config.rxfifoDepth ≤ s.rxfifo.length →
      push c s = { s with err := 0x15, events := s.events ||| 0b0010 })

/-- R110, R174: the bits classified since the accumulator was empty leave in the queue the characters of
`decode` of the whole stream, in order, as far as there is room, and in the accumulator the trailing
group. -/
def Obligations.AccumulatedBitsAreTheDecodedText : Prop :=
  ∀ (bits : List Bool) (s : State), s.rxcnt = 0 → s.rxshift = 0 → s.rxfifo.length ≤ s.config.rxfifoDepth →
    (accumulateAll bits s).rxfifo = (s.rxfifo ++ decodeBits bits).take s.config.rxfifoDepth ∧
    (accumulateAll bits s).rxcnt.toNat = bits.length % 8 ∧
    (accumulateAll bits s).rxshift.toNat = bitsValue (bits.drop (8 * (bits.length / 8)))

/-! ## BitCodec -/

/-- R101: `encode` gives 8 bits per character, bit `i` is bit `7 - (i mod 8)` of character `i div 8`; a
character above 127 is rejected. -/
def Obligations.EncodeGivesTheBits : Prop :=
  ∀ text : List Byte,
    ((∃ c ∈ text, 0x80 ≤ c.toNat) → encodeText text = .error .encodingError) ∧
    ((∀ c ∈ text, c.toNat < 0x80) → ∃ bits, encodeText text = .ok bits ∧ bits.length = 8 * text.length ∧
      ∀ (i : Nat) (c : Byte), text[i / 8]? = some c →
        bits[i]? = some (decide (c.toNat / 2 ^ (7 - i % 8) % 2 = 1)))

/-- R102: `decode` gives one character per full group of 8 bits, the first bit the highest, and drops the
`M mod 8` last bits. -/
def Obligations.DecodeGroupsTheBits : Prop :=
  ∀ bits : List Bool,
    (decodeBits bits).length = bits.length / 8 ∧
    ∀ (j : Nat) (c : Byte), (decodeBits bits)[j]? = some c →
      c.toNat = ((List.range 8).map (fun n => bitNat (bits.getD (8 * j + n) false) * 2 ^ (7 - n))).sum

/-- R103: `decode(encode(text)) = text` for every 7-bit ASCII text. -/
def Obligations.TextRoundTrip : Prop :=
  ∀ text : List Byte, (∀ c ∈ text, c.toNat < 0x80) →
    ∃ bits, encodeText text = .ok bits ∧ decodeBits bits = text

/-! ## Whole-machine rules -/

/-- R196, R252: no step leads from Transmitting to Listening or back. Transmitting is left only by reset,
`TXSTOP` or completion, Listening only by reset or `RXSTOP`, and Idle only by an accepted `TRANSMIT` or
`LISTEN`. -/
def Obligations.ModeMovesOnlyAlongItsEdges : Prop :=
  ∀ s t : State, step s = .next t →
    (s.mode = .transmitting → t.mode ≠ .listening) ∧
    (s.mode = .listening → t.mode ≠ .transmitting) ∧
    (s.mode = .transmitting → t.mode = .idle →
      s.port.rst = true ∨ s.port.cmd = some 0x60000000 ∨
        s.txcnt + 1 = s.nsym * s.cfg.tsym.toNat + s.config.guardTicks ∧ t.events.getLsbD 2 = true) ∧
    (s.mode = .listening → t.mode = .idle → s.port.rst = true ∨ s.port.cmd = some 0x80000000) ∧
    (s.mode = .idle → t.mode = .transmitting →
      s.port.cmd = some 0x50000000 ∧ s.port.sinkRdy = true ∧ AsciiText s) ∧
    (s.mode = .idle → t.mode = .listening → s.port.cmd = some 0x70000000 ∧ s.port.inOk = true)

/-- R74, R20, R250: while a session is active no step but reset changes a configuration register, the
text or its length. -/
def Obligations.SessionLocksConfigurationAndText : Prop :=
  ∀ s t : State, step s = .next t → s.mode ≠ .idle → s.port.rst = false →
    t.cfg = s.cfg ∧ t.txlen = s.txlen ∧ ∀ a, memRead t.txbuf a = memRead s.txbuf a

/-- R51: an event bit that is set stays set through every step but reset and an `EVCLR` that selects it. -/
def Obligations.EventsAreSticky : Prop :=
  ∀ (s t : State) (k : Nat), step s = .next t → s.port.rst = false → s.events.getLsbD k = true →
    t.events.getLsbD k = true ∨
      ∃ w m, s.port.cmd = some w ∧ decode w = some (.evclr m) ∧ m.getLsbD k = true

/-- R52, R212, R217: `ERR` changes only in a detection tick of a listen session, which posts `DeviceError`
or `RxOverflow` and sets `EVENTS.ERR`; `DecodingError` and `AlreadyListening` are never posted and never
answered. -/
def Obligations.ErrorsArePostedByDetectionOnly : Prop :=
  ∀ s t : State, step s = .next t → s.port.rst = false →
    (t.err = s.err ∨
      (t.err = 0x03 ∨ t.err = 0x15) ∧ t.events.getLsbD 1 = true ∧ t.mode = .listening ∧ t.tickcnt = 0) ∧
    (t.rspValid = true → t.rsp.status ≠ 0x05 ∧ t.rsp.status ≠ 0x06)

/-- R137: only `TRANSMIT` and the read of the flags look at `sink_rdy`: in a period with any other command,
or none, the step is the same whatever the pin. -/
def Obligations.SinkPinIsReadByTransmitOnly : Prop :=
  ∀ (s : State) (b : Bool), s.port.cmd ≠ some 0x50000000 → s.port.cmd ≠ some 0xA2000000 →
    step { s with port := { s.port with sinkRdy := b } } = step s

/-- R64, R154: the frame at the port is read by a detection tick only: in a period after which the poll
timer is not 0, or outside Listening, the step is the same whatever the frame. -/
def Obligations.FrameIsReadByDetectionOnly : Prop :=
  ∀ (s t : State) (f : List Nat), step s = .next t → (t.mode ≠ .listening ∨ t.tickcnt ≠ 0) →
    step { s with port := { s.port with frame := f } } = .next t
end

