-- ==== Sys2Proof/Laws/Memory.lean ====
section
/-! SUPPORT. What the memory operations do: a read after a write, the canonical form kept, the capture of
a frame, and the read of a range (R61 to R64, R68). -/

namespace Sys2Proof.Machine

variable {α : Type}

@[simp] theorem memRead_nil (k : Nat) : memRead ([] : Memory α) k = none := rfl

theorem memRead_memWrite (m : Memory α) (k j : Nat) (v : α) :
    memRead (memWrite m k v) j = if j = k then some v else memRead m j := by
  induction m with
  | nil => simp [memWrite, memRead, eq_comm]
  | cons c rest ih =>
    obtain ⟨a, x⟩ := c
    simp only [memWrite]
    split
    · simp [memRead, eq_comm (a := k)]
    · split
      · next h => subst h; by_cases hj : j = k <;> simp [memRead, hj, eq_comm (a := k)]
      · next h =>
        simp only [memRead, ih]
        by_cases hj : j = k
        · subst hj; simp [Ne.symm h]
        · simp [hj]

theorem memWrite_key {m : Memory α} {k : Nat} {v : α} {p : Nat × α} (h : p ∈ memWrite m k v) :
    p.1 = k ∨ p ∈ m := by
  induction m with
  | nil => simp [memWrite] at h; simp [h]
  | cons c rest ih =>
    obtain ⟨a, x⟩ := c
    simp only [memWrite] at h
    split at h
    · rcases List.mem_cons.1 h with h | h
      · exact .inl (by rw [h])
      · exact .inr h
    · split at h
      · rcases List.mem_cons.1 h with h | h
        · exact .inl (by rw [h])
        · exact .inr (List.mem_cons_of_mem _ h)
      · rcases List.mem_cons.1 h with h | h
        · exact .inr (by rw [h]; exact List.mem_cons_self)
        · exact (ih h).imp id (List.mem_cons_of_mem _)

theorem memWrite_wf {m : Memory α} (h : Memory.wf m) (k : Nat) (v : α) : Memory.wf (memWrite m k v) := by
  induction m with
  | nil => simp [memWrite, Memory.wf]
  | cons c rest ih =>
    obtain ⟨a, x⟩ := c
    obtain ⟨h1, h2⟩ := List.pairwise_cons.1 h
    simp only [memWrite]
    split
    · next hk =>
      refine List.pairwise_cons.2 ⟨fun p hp => ?_, h⟩
      rcases List.mem_cons.1 hp with hp | hp
      · simpa [hp] using hk
      · exact Nat.lt_trans hk (h1 p hp)
    · split
      · next hk => subst hk; exact List.pairwise_cons.2 ⟨h1, h2⟩
      · refine List.pairwise_cons.2 ⟨fun p hp => ?_, ih h2⟩
        rcases memWrite_key hp with hp | hp
        · simp only [hp]; omega
        · exact h1 p hp

theorem mem_cellsFrom {vs : List α} {k : Nat} {p : Nat × α} (h : p ∈ cellsFrom k vs) :
    k ≤ p.1 ∧ p.1 < k + vs.length := by
  induction vs generalizing k with
  | nil => simp [cellsFrom] at h
  | cons v vs ih =>
    rcases List.mem_cons.1 h with h | h
    · simp [h]
    · have := ih h; simp only [List.length_cons]; omega

theorem cellsFrom_wf (vs : List α) (k : Nat) : Memory.wf (cellsFrom k vs) := by
  induction vs generalizing k with
  | nil => simp [cellsFrom, Memory.wf]
  | cons v vs ih => exact List.pairwise_cons.2 ⟨fun p hp => (mem_cellsFrom hp).1, ih (k + 1)⟩

theorem memRead_cellsFrom (vs : List α) (k j : Nat) :
    memRead (cellsFrom k vs) j = if k ≤ j then vs[j - k]? else none := by
  induction vs generalizing k with
  | nil => simp [cellsFrom]
  | cons v vs ih =>
    simp only [cellsFrom, memRead, ih]
    by_cases h1 : k = j
    · subst h1; simp
    · by_cases h2 : k ≤ j
      · simp [h1, h2, show k + 1 ≤ j by omega, show j - k = (j - (k + 1)) + 1 by omega]
      · simp [h1, h2, show ¬ k + 1 ≤ j by omega]

theorem memRead_append (m n : Memory α) (k : Nat) :
    memRead (m ++ n) k = (memRead m k).or (memRead n k) := by
  induction m with
  | nil => simp
  | cons c m ih => obtain ⟨a, x⟩ := c; by_cases h : a = k <;> simp [memRead, h, ih]

theorem memRead_filter_ge (m : Memory α) (n k : Nat) (h : n ≤ k) :
    memRead (m.filter (fun p => decide (n ≤ p.1))) k = memRead m k := by
  induction m with
  | nil => rfl
  | cons c m ih =>
    obtain ⟨a, x⟩ := c
    by_cases ha : n ≤ a
    · simp [ha, memRead, ih]
    · simp [ha, memRead, ih, show ¬ a = k by omega]

/-- A captured frame reads back, sample by sample. -/
theorem memRead_memCapture_lt (m : Memory α) {n : Nat} {vs : List α} (hn : vs.length = n) {k : Nat} (h : k < n) :
    memRead (memCapture m n vs) k = vs[k]? := by
  have : vs[k]? = some vs[k] := List.getElem?_eq_getElem (by omega)
  simp [memCapture, memRead_append, memRead_cellsFrom, this]

/-- A capture leaves the cells beyond it alone. -/
theorem memRead_memCapture_ge (m : Memory α) {n : Nat} {vs : List α} (hn : vs.length = n) {k : Nat} (h : n ≤ k) :
    memRead (memCapture m n vs) k = memRead m k := by
  have : vs[k]? = none := List.getElem?_eq_none (by omega)
  simp [memCapture, memRead_append, memRead_cellsFrom, this, memRead_filter_ge m n k h]

theorem memCapture_wf {m : Memory α} (h : Memory.wf m) {n : Nat} {vs : List α} (hn : vs.length = n) :
    Memory.wf (memCapture m n vs) := by
  refine List.pairwise_append.2 ⟨cellsFrom_wf vs 0, h.filter _, fun p hp q hq => ?_⟩
  have h1 := (mem_cellsFrom hp).2
  have h2 := (List.mem_filter.1 hq).2
  simp at h2
  omega

/-- After a capture the cells below `n` are exactly the captured ones. -/
theorem memCapture_filter_lt (m : Memory α) {n : Nat} {vs : List α} (hn : vs.length = n) :
    (memCapture m n vs).filter (fun p => decide (p.1 < n)) = cellsFrom 0 vs := by
  have h1 : (cellsFrom 0 vs).filter (fun p => decide (p.1 < n)) = cellsFrom 0 vs :=
    List.filter_eq_self.2 (fun p hp => by have := (mem_cellsFrom hp).2; simpa using (by omega : p.1 < n))
  have h2 : (m.filter (fun p => decide (n ≤ p.1))).filter (fun p => decide (p.1 < n)) = [] := by
    refine List.filter_eq_nil_iff.2 (fun p hp => ?_)
    have := (List.mem_filter.1 hp).2
    simp at this ⊢
    exact this
  simp [memCapture, List.filter_append, h1, h2]

/-- A range all of whose cells are written reads as its list of values. -/
theorem memReadRange_ok {m : Memory α} {n k : Nat} (h : ∀ j < n, (memRead m (k + j)).isSome) :
    ∃ xs, memReadRange m k n = .ok xs ∧ xs.length = n ∧ ∀ j < n, memRead m (k + j) = xs[j]? := by
  induction n generalizing k with
  | zero => exact ⟨[], rfl, rfl, by simp⟩
  | succ n ih =>
    obtain ⟨x, hx⟩ := Option.isSome_iff_exists.1 (h 0 (by omega))
    obtain ⟨xs, h1, h2, h3⟩ := ih (k := k + 1) (fun j hj => by
      have := h (j + 1) (by omega)
      rwa [show k + (j + 1) = k + 1 + j by omega] at this)
    refine ⟨x :: xs, ?_, by simp [h2], fun j hj => ?_⟩
    · simp only [memReadRange, h1, show memRead m k = some x from hx]
    · cases j with
      | zero => simpa using hx
      | succ j => simpa [show k + (j + 1) = k + 1 + j by omega] using h3 j (by omega)

/-- What a successful range read says of each cell. -/
theorem memReadRange_get {m : Memory α} {n k : Nat} {xs : List α} (h : memReadRange m k n = .ok xs) :
    xs.length = n ∧ ∀ j < n, memRead m (k + j) = xs[j]? := by
  induction n generalizing k xs with
  | zero => simp only [memReadRange, Except.ok.injEq] at h; subst h; simp
  | succ n ih =>
    simp only [memReadRange] at h
    cases hx : memRead m k with
    | none => simp [hx] at h
    | some x =>
      cases hr : memReadRange m (k + 1) n with
      | error e => simp [hx, hr] at h
      | ok ys =>
        simp only [hx, hr, Except.ok.injEq] at h
        subst h
        obtain ⟨h1, h2⟩ := ih hr
        refine ⟨by simp [h1], fun j hj => ?_⟩
        cases j with
        | zero => simpa using hx
        | succ j => simpa [show k + (j + 1) = k + 1 + j by omega] using h2 j (by omega)

/-- A failed range read names the first cell nothing has written. -/
theorem memReadRange_error {m : Memory α} {n k e : Nat} (h : memReadRange m k n = .error e) :
    k ≤ e ∧ e < k + n ∧ memRead m e = none ∧ ∀ j, k ≤ j → j < e → (memRead m j).isSome := by
  induction n generalizing k with
  | zero => simp [memReadRange] at h
  | succ n ih =>
    simp only [memReadRange] at h
    cases hx : memRead m k with
    | none =>
      simp only [hx, Except.error.injEq] at h
      subst h
      exact ⟨Nat.le_refl _, by omega, hx, fun j h1 h2 => by omega⟩
    | some x =>
      cases hr : memReadRange m (k + 1) n with
      | ok ys => simp [hx, hr] at h
      | error e' =>
        simp only [hx, hr, Except.error.injEq] at h
        subst h
        obtain ⟨h1, h2, h3, h4⟩ := ih hr
        refine ⟨by omega, by omega, h3, fun j hj1 hj2 => ?_⟩
        by_cases hj : j = k
        · subst hj; simp [hx]
        · exact h4 j (by omega) hj2

end Sys2Proof.Machine
end

