-- ==== Sys2Proof/Laws/State.lean ====
section
/-! SUPPORT. For each named update of State, its value at every field. Later proofs rewrite with these
and unfold no record update. -/

namespace Sys2Proof.Machine

variable (s : State)

@[simp] theorem answer_config (st : BitVec 8) (d : Word) : (answer st d s).config = s.config := rfl
@[simp] theorem answer_cfg (st : BitVec 8) (d : Word) : (answer st d s).cfg = s.cfg := rfl
@[simp] theorem answer_mode (st : BitVec 8) (d : Word) : (answer st d s).mode = s.mode := rfl
@[simp] theorem answer_mgain (st : BitVec 8) (d : Word) : (answer st d s).mgain = s.mgain := rfl
@[simp] theorem answer_txcnt (st : BitVec 8) (d : Word) : (answer st d s).txcnt = s.txcnt := rfl
@[simp] theorem answer_nsym (st : BitVec 8) (d : Word) : (answer st d s).nsym = s.nsym := rfl
@[simp] theorem answer_t0 (st : BitVec 8) (d : Word) : (answer st d s).t0 = s.t0 := rfl
@[simp] theorem answer_txlen (st : BitVec 8) (d : Word) : (answer st d s).txlen = s.txlen := rfl
@[simp] theorem answer_tickcnt (st : BitVec 8) (d : Word) : (answer st d s).tickcnt = s.tickcnt := rfl
@[simp] theorem answer_rxshift (st : BitVec 8) (d : Word) : (answer st d s).rxshift = s.rxshift := rfl
@[simp] theorem answer_rxcnt (st : BitVec 8) (d : Word) : (answer st d s).rxcnt = s.rxcnt := rfl
@[simp] theorem answer_reading (st : BitVec 8) (d : Word) : (answer st d s).reading = s.reading := rfl
@[simp] theorem answer_events (st : BitVec 8) (d : Word) : (answer st d s).events = s.events := rfl
@[simp] theorem answer_irqen (st : BitVec 8) (d : Word) : (answer st d s).irqen = s.irqen := rfl
@[simp] theorem answer_err (st : BitVec 8) (d : Word) : (answer st d s).err = s.err := rfl
@[simp] theorem answer_clk (st : BitVec 8) (d : Word) : (answer st d s).clk = s.clk := rfl
@[simp] theorem answer_clkhiLatch (st : BitVec 8) (d : Word) : (answer st d s).clkhiLatch = s.clkhiLatch := rfl
@[simp] theorem answer_txbuf (st : BitVec 8) (d : Word) : (answer st d s).txbuf = s.txbuf := rfl
@[simp] theorem answer_frame (st : BitVec 8) (d : Word) : (answer st d s).frame = s.frame := rfl
@[simp] theorem answer_rxfifo (st : BitVec 8) (d : Word) : (answer st d s).rxfifo = s.rxfifo := rfl
@[simp] theorem answer_rspValid (st : BitVec 8) (d : Word) : (answer st d s).rspValid = true := rfl
@[simp] theorem answer_rsp (st : BitVec 8) (d : Word) : (answer st d s).rsp = ⟨st, d⟩ := rfl
@[simp] theorem answer_out (st : BitVec 8) (d : Word) : (answer st d s).out = s.out := rfl
@[simp] theorem answer_port (st : BitVec 8) (d : Word) : (answer st d s).port = s.port := rfl
@[simp] theorem answer_future (st : BitVec 8) (d : Word) : (answer st d s).future = s.future := rfl
@[simp] theorem answer_draws (st : BitVec 8) (d : Word) : (answer st d s).draws = s.draws := rfl

@[simp] theorem noResponse_config : (noResponse s).config = s.config := rfl
@[simp] theorem noResponse_cfg : (noResponse s).cfg = s.cfg := rfl
@[simp] theorem noResponse_mode : (noResponse s).mode = s.mode := rfl
@[simp] theorem noResponse_mgain : (noResponse s).mgain = s.mgain := rfl
@[simp] theorem noResponse_txcnt : (noResponse s).txcnt = s.txcnt := rfl
@[simp] theorem noResponse_nsym : (noResponse s).nsym = s.nsym := rfl
@[simp] theorem noResponse_t0 : (noResponse s).t0 = s.t0 := rfl
@[simp] theorem noResponse_txlen : (noResponse s).txlen = s.txlen := rfl
@[simp] theorem noResponse_tickcnt : (noResponse s).tickcnt = s.tickcnt := rfl
@[simp] theorem noResponse_rxshift : (noResponse s).rxshift = s.rxshift := rfl
@[simp] theorem noResponse_rxcnt : (noResponse s).rxcnt = s.rxcnt := rfl
@[simp] theorem noResponse_reading : (noResponse s).reading = s.reading := rfl
@[simp] theorem noResponse_events : (noResponse s).events = s.events := rfl
@[simp] theorem noResponse_irqen : (noResponse s).irqen = s.irqen := rfl
@[simp] theorem noResponse_err : (noResponse s).err = s.err := rfl
@[simp] theorem noResponse_clk : (noResponse s).clk = s.clk := rfl
@[simp] theorem noResponse_clkhiLatch : (noResponse s).clkhiLatch = s.clkhiLatch := rfl
@[simp] theorem noResponse_txbuf : (noResponse s).txbuf = s.txbuf := rfl
@[simp] theorem noResponse_frame : (noResponse s).frame = s.frame := rfl
@[simp] theorem noResponse_rxfifo : (noResponse s).rxfifo = s.rxfifo := rfl
@[simp] theorem noResponse_rspValid : (noResponse s).rspValid = false := rfl
@[simp] theorem noResponse_rsp : (noResponse s).rsp = ⟨Config.freeRspStatus s.draws, Config.freeRspData s.draws⟩ := rfl
@[simp] theorem noResponse_out : (noResponse s).out = s.out := rfl
@[simp] theorem noResponse_port : (noResponse s).port = s.port := rfl
@[simp] theorem noResponse_future : (noResponse s).future = s.future := rfl
@[simp] theorem noResponse_draws : (noResponse s).draws = s.draws := rfl

@[simp] theorem setEvents_config (m : BitVec 4) : (setEvents m s).config = s.config := rfl
@[simp] theorem setEvents_cfg (m : BitVec 4) : (setEvents m s).cfg = s.cfg := rfl
@[simp] theorem setEvents_mode (m : BitVec 4) : (setEvents m s).mode = s.mode := rfl
@[simp] theorem setEvents_mgain (m : BitVec 4) : (setEvents m s).mgain = s.mgain := rfl
@[simp] theorem setEvents_txcnt (m : BitVec 4) : (setEvents m s).txcnt = s.txcnt := rfl
@[simp] theorem setEvents_nsym (m : BitVec 4) : (setEvents m s).nsym = s.nsym := rfl
@[simp] theorem setEvents_t0 (m : BitVec 4) : (setEvents m s).t0 = s.t0 := rfl
@[simp] theorem setEvents_txlen (m : BitVec 4) : (setEvents m s).txlen = s.txlen := rfl
@[simp] theorem setEvents_tickcnt (m : BitVec 4) : (setEvents m s).tickcnt = s.tickcnt := rfl
@[simp] theorem setEvents_rxshift (m : BitVec 4) : (setEvents m s).rxshift = s.rxshift := rfl
@[simp] theorem setEvents_rxcnt (m : BitVec 4) : (setEvents m s).rxcnt = s.rxcnt := rfl
@[simp] theorem setEvents_reading (m : BitVec 4) : (setEvents m s).reading = s.reading := rfl
@[simp] theorem setEvents_events (m : BitVec 4) : (setEvents m s).events = s.events ||| m := rfl
@[simp] theorem setEvents_irqen (m : BitVec 4) : (setEvents m s).irqen = s.irqen := rfl
@[simp] theorem setEvents_err (m : BitVec 4) : (setEvents m s).err = s.err := rfl
@[simp] theorem setEvents_clk (m : BitVec 4) : (setEvents m s).clk = s.clk := rfl
@[simp] theorem setEvents_clkhiLatch (m : BitVec 4) : (setEvents m s).clkhiLatch = s.clkhiLatch := rfl
@[simp] theorem setEvents_txbuf (m : BitVec 4) : (setEvents m s).txbuf = s.txbuf := rfl
@[simp] theorem setEvents_frame (m : BitVec 4) : (setEvents m s).frame = s.frame := rfl
@[simp] theorem setEvents_rxfifo (m : BitVec 4) : (setEvents m s).rxfifo = s.rxfifo := rfl
@[simp] theorem setEvents_rspValid (m : BitVec 4) : (setEvents m s).rspValid = s.rspValid := rfl
@[simp] theorem setEvents_rsp (m : BitVec 4) : (setEvents m s).rsp = s.rsp := rfl
@[simp] theorem setEvents_out (m : BitVec 4) : (setEvents m s).out = s.out := rfl
@[simp] theorem setEvents_port (m : BitVec 4) : (setEvents m s).port = s.port := rfl
@[simp] theorem setEvents_future (m : BitVec 4) : (setEvents m s).future = s.future := rfl
@[simp] theorem setEvents_draws (m : BitVec 4) : (setEvents m s).draws = s.draws := rfl

@[simp] theorem post_config (c : Cause) : (post c s).config = s.config := rfl
@[simp] theorem post_cfg (c : Cause) : (post c s).cfg = s.cfg := rfl
@[simp] theorem post_mode (c : Cause) : (post c s).mode = s.mode := rfl
@[simp] theorem post_mgain (c : Cause) : (post c s).mgain = s.mgain := rfl
@[simp] theorem post_txcnt (c : Cause) : (post c s).txcnt = s.txcnt := rfl
@[simp] theorem post_nsym (c : Cause) : (post c s).nsym = s.nsym := rfl
@[simp] theorem post_t0 (c : Cause) : (post c s).t0 = s.t0 := rfl
@[simp] theorem post_txlen (c : Cause) : (post c s).txlen = s.txlen := rfl
@[simp] theorem post_tickcnt (c : Cause) : (post c s).tickcnt = s.tickcnt := rfl
@[simp] theorem post_rxshift (c : Cause) : (post c s).rxshift = s.rxshift := rfl
@[simp] theorem post_rxcnt (c : Cause) : (post c s).rxcnt = s.rxcnt := rfl
@[simp] theorem post_reading (c : Cause) : (post c s).reading = s.reading := rfl
@[simp] theorem post_events (c : Cause) : (post c s).events = s.events ||| evErr := rfl
@[simp] theorem post_irqen (c : Cause) : (post c s).irqen = s.irqen := rfl
@[simp] theorem post_err (c : Cause) : (post c s).err = causeCode c := rfl
@[simp] theorem post_clk (c : Cause) : (post c s).clk = s.clk := rfl
@[simp] theorem post_clkhiLatch (c : Cause) : (post c s).clkhiLatch = s.clkhiLatch := rfl
@[simp] theorem post_txbuf (c : Cause) : (post c s).txbuf = s.txbuf := rfl
@[simp] theorem post_frame (c : Cause) : (post c s).frame = s.frame := rfl
@[simp] theorem post_rxfifo (c : Cause) : (post c s).rxfifo = s.rxfifo := rfl
@[simp] theorem post_rspValid (c : Cause) : (post c s).rspValid = s.rspValid := rfl
@[simp] theorem post_rsp (c : Cause) : (post c s).rsp = s.rsp := rfl
@[simp] theorem post_out (c : Cause) : (post c s).out = s.out := rfl
@[simp] theorem post_port (c : Cause) : (post c s).port = s.port := rfl
@[simp] theorem post_future (c : Cause) : (post c s).future = s.future := rfl
@[simp] theorem post_draws (c : Cause) : (post c s).draws = s.draws := rfl

@[simp] theorem endTransmit_config : (endTransmit s).config = s.config := rfl
@[simp] theorem endTransmit_cfg : (endTransmit s).cfg = s.cfg := rfl
@[simp] theorem endTransmit_mode : (endTransmit s).mode = .idle := rfl
@[simp] theorem endTransmit_mgain : (endTransmit s).mgain = 0 := rfl
@[simp] theorem endTransmit_txcnt : (endTransmit s).txcnt = 0 := rfl
@[simp] theorem endTransmit_nsym : (endTransmit s).nsym = 0 := rfl
@[simp] theorem endTransmit_t0 : (endTransmit s).t0 = s.t0 := rfl
@[simp] theorem endTransmit_txlen : (endTransmit s).txlen = s.txlen := rfl
@[simp] theorem endTransmit_tickcnt : (endTransmit s).tickcnt = s.tickcnt := rfl
@[simp] theorem endTransmit_rxshift : (endTransmit s).rxshift = s.rxshift := rfl
@[simp] theorem endTransmit_rxcnt : (endTransmit s).rxcnt = s.rxcnt := rfl
@[simp] theorem endTransmit_reading : (endTransmit s).reading = s.reading := rfl
@[simp] theorem endTransmit_events : (endTransmit s).events = s.events := rfl
@[simp] theorem endTransmit_irqen : (endTransmit s).irqen = s.irqen := rfl
@[simp] theorem endTransmit_err : (endTransmit s).err = s.err := rfl
@[simp] theorem endTransmit_clk : (endTransmit s).clk = s.clk := rfl
@[simp] theorem endTransmit_clkhiLatch : (endTransmit s).clkhiLatch = s.clkhiLatch := rfl
@[simp] theorem endTransmit_txbuf : (endTransmit s).txbuf = s.txbuf := rfl
@[simp] theorem endTransmit_frame : (endTransmit s).frame = s.frame := rfl
@[simp] theorem endTransmit_rxfifo : (endTransmit s).rxfifo = s.rxfifo := rfl
@[simp] theorem endTransmit_rspValid : (endTransmit s).rspValid = s.rspValid := rfl
@[simp] theorem endTransmit_rsp : (endTransmit s).rsp = s.rsp := rfl
@[simp] theorem endTransmit_out : (endTransmit s).out = s.out := rfl
@[simp] theorem endTransmit_port : (endTransmit s).port = s.port := rfl
@[simp] theorem endTransmit_future : (endTransmit s).future = s.future := rfl
@[simp] theorem endTransmit_draws : (endTransmit s).draws = s.draws := rfl

@[simp] theorem endListen_config : (endListen s).config = s.config := rfl
@[simp] theorem endListen_cfg : (endListen s).cfg = s.cfg := rfl
@[simp] theorem endListen_mode : (endListen s).mode = .idle := rfl
@[simp] theorem endListen_mgain : (endListen s).mgain = s.mgain := rfl
@[simp] theorem endListen_txcnt : (endListen s).txcnt = s.txcnt := rfl
@[simp] theorem endListen_nsym : (endListen s).nsym = s.nsym := rfl
@[simp] theorem endListen_t0 : (endListen s).t0 = s.t0 := rfl
@[simp] theorem endListen_txlen : (endListen s).txlen = s.txlen := rfl
@[simp] theorem endListen_tickcnt : (endListen s).tickcnt = 0 := rfl
@[simp] theorem endListen_rxshift : (endListen s).rxshift = 0 := rfl
@[simp] theorem endListen_rxcnt : (endListen s).rxcnt = 0 := rfl
@[simp] theorem endListen_reading : (endListen s).reading = s.reading := rfl
@[simp] theorem endListen_events : (endListen s).events = s.events := rfl
@[simp] theorem endListen_irqen : (endListen s).irqen = s.irqen := rfl
@[simp] theorem endListen_err : (endListen s).err = s.err := rfl
@[simp] theorem endListen_clk : (endListen s).clk = s.clk := rfl
@[simp] theorem endListen_clkhiLatch : (endListen s).clkhiLatch = s.clkhiLatch := rfl
@[simp] theorem endListen_txbuf : (endListen s).txbuf = s.txbuf := rfl
@[simp] theorem endListen_frame : (endListen s).frame = s.frame := rfl
@[simp] theorem endListen_rxfifo : (endListen s).rxfifo = s.rxfifo := rfl
@[simp] theorem endListen_rspValid : (endListen s).rspValid = s.rspValid := rfl
@[simp] theorem endListen_rsp : (endListen s).rsp = s.rsp := rfl
@[simp] theorem endListen_out : (endListen s).out = s.out := rfl
@[simp] theorem endListen_port : (endListen s).port = s.port := rfl
@[simp] theorem endListen_future : (endListen s).future = s.future := rfl
@[simp] theorem endListen_draws : (endListen s).draws = s.draws := rfl

@[simp] theorem startTransmit_config : (startTransmit s).config = s.config := rfl
@[simp] theorem startTransmit_cfg : (startTransmit s).cfg = s.cfg := rfl
@[simp] theorem startTransmit_mode : (startTransmit s).mode = .transmitting := rfl
@[simp] theorem startTransmit_mgain : (startTransmit s).mgain = if 0 < s.txlen then s.cfg.amp else 0 := rfl
@[simp] theorem startTransmit_txcnt : (startTransmit s).txcnt = 0 := rfl
@[simp] theorem startTransmit_nsym : (startTransmit s).nsym = 8 * s.txlen := rfl
@[simp] theorem startTransmit_t0 : (startTransmit s).t0 = s.clk := rfl
@[simp] theorem startTransmit_txlen : (startTransmit s).txlen = s.txlen := rfl
@[simp] theorem startTransmit_tickcnt : (startTransmit s).tickcnt = s.tickcnt := rfl
@[simp] theorem startTransmit_rxshift : (startTransmit s).rxshift = s.rxshift := rfl
@[simp] theorem startTransmit_rxcnt : (startTransmit s).rxcnt = s.rxcnt := rfl
@[simp] theorem startTransmit_reading : (startTransmit s).reading = s.reading := rfl
@[simp] theorem startTransmit_events : (startTransmit s).events = s.events := rfl
@[simp] theorem startTransmit_irqen : (startTransmit s).irqen = s.irqen := rfl
@[simp] theorem startTransmit_err : (startTransmit s).err = s.err := rfl
@[simp] theorem startTransmit_clk : (startTransmit s).clk = s.clk := rfl
@[simp] theorem startTransmit_clkhiLatch : (startTransmit s).clkhiLatch = s.clkhiLatch := rfl
@[simp] theorem startTransmit_txbuf : (startTransmit s).txbuf = s.txbuf := rfl
@[simp] theorem startTransmit_frame : (startTransmit s).frame = s.frame := rfl
@[simp] theorem startTransmit_rxfifo : (startTransmit s).rxfifo = s.rxfifo := rfl
@[simp] theorem startTransmit_rspValid : (startTransmit s).rspValid = s.rspValid := rfl
@[simp] theorem startTransmit_rsp : (startTransmit s).rsp = s.rsp := rfl
@[simp] theorem startTransmit_out : (startTransmit s).out = s.out := rfl
@[simp] theorem startTransmit_port : (startTransmit s).port = s.port := rfl
@[simp] theorem startTransmit_future : (startTransmit s).future = s.future := rfl
@[simp] theorem startTransmit_draws : (startTransmit s).draws = s.draws := rfl

@[simp] theorem startListen_config : (startListen s).config = s.config := rfl
@[simp] theorem startListen_cfg : (startListen s).cfg = s.cfg := rfl
@[simp] theorem startListen_mode : (startListen s).mode = .listening := rfl
@[simp] theorem startListen_mgain : (startListen s).mgain = s.mgain := rfl
@[simp] theorem startListen_txcnt : (startListen s).txcnt = s.txcnt := rfl
@[simp] theorem startListen_nsym : (startListen s).nsym = s.nsym := rfl
@[simp] theorem startListen_t0 : (startListen s).t0 = s.t0 := rfl
@[simp] theorem startListen_txlen : (startListen s).txlen = s.txlen := rfl
@[simp] theorem startListen_tickcnt : (startListen s).tickcnt = 0 := rfl
@[simp] theorem startListen_rxshift : (startListen s).rxshift = 0 := rfl
@[simp] theorem startListen_rxcnt : (startListen s).rxcnt = 0 := rfl
@[simp] theorem startListen_reading : (startListen s).reading = ⟨false, 0, 0⟩ := rfl
@[simp] theorem startListen_events : (startListen s).events = s.events := rfl
@[simp] theorem startListen_irqen : (startListen s).irqen = s.irqen := rfl
@[simp] theorem startListen_err : (startListen s).err = s.err := rfl
@[simp] theorem startListen_clk : (startListen s).clk = s.clk := rfl
@[simp] theorem startListen_clkhiLatch : (startListen s).clkhiLatch = s.clkhiLatch := rfl
@[simp] theorem startListen_txbuf : (startListen s).txbuf = s.txbuf := rfl
@[simp] theorem startListen_frame : (startListen s).frame = s.frame := rfl
@[simp] theorem startListen_rxfifo : (startListen s).rxfifo = s.rxfifo := rfl
@[simp] theorem startListen_rspValid : (startListen s).rspValid = s.rspValid := rfl
@[simp] theorem startListen_rsp : (startListen s).rsp = s.rsp := rfl
@[simp] theorem startListen_out : (startListen s).out = s.out := rfl
@[simp] theorem startListen_port : (startListen s).port = s.port := rfl
@[simp] theorem startListen_future : (startListen s).future = s.future := rfl
@[simp] theorem startListen_draws : (startListen s).draws = s.draws := rfl

@[simp] theorem captureFrame_config : (captureFrame s).config = s.config := rfl
@[simp] theorem captureFrame_cfg : (captureFrame s).cfg = s.cfg := rfl
@[simp] theorem captureFrame_mode : (captureFrame s).mode = s.mode := rfl
@[simp] theorem captureFrame_mgain : (captureFrame s).mgain = s.mgain := rfl
@[simp] theorem captureFrame_txcnt : (captureFrame s).txcnt = s.txcnt := rfl
@[simp] theorem captureFrame_nsym : (captureFrame s).nsym = s.nsym := rfl
@[simp] theorem captureFrame_t0 : (captureFrame s).t0 = s.t0 := rfl
@[simp] theorem captureFrame_txlen : (captureFrame s).txlen = s.txlen := rfl
@[simp] theorem captureFrame_tickcnt : (captureFrame s).tickcnt = s.tickcnt := rfl
@[simp] theorem captureFrame_rxshift : (captureFrame s).rxshift = s.rxshift := rfl
@[simp] theorem captureFrame_rxcnt : (captureFrame s).rxcnt = s.rxcnt := rfl
@[simp] theorem captureFrame_reading : (captureFrame s).reading = s.reading := rfl
@[simp] theorem captureFrame_events : (captureFrame s).events = s.events := rfl
@[simp] theorem captureFrame_irqen : (captureFrame s).irqen = s.irqen := rfl
@[simp] theorem captureFrame_err : (captureFrame s).err = s.err := rfl
@[simp] theorem captureFrame_clk : (captureFrame s).clk = s.clk := rfl
@[simp] theorem captureFrame_clkhiLatch : (captureFrame s).clkhiLatch = s.clkhiLatch := rfl
@[simp] theorem captureFrame_txbuf : (captureFrame s).txbuf = s.txbuf := rfl
@[simp] theorem captureFrame_frame : (captureFrame s).frame = memCapture s.frame s.cfg.nbins.toNat (portFrame s) := rfl
@[simp] theorem captureFrame_rxfifo : (captureFrame s).rxfifo = s.rxfifo := rfl
@[simp] theorem captureFrame_rspValid : (captureFrame s).rspValid = s.rspValid := rfl
@[simp] theorem captureFrame_rsp : (captureFrame s).rsp = s.rsp := rfl
@[simp] theorem captureFrame_out : (captureFrame s).out = s.out := rfl
@[simp] theorem captureFrame_port : (captureFrame s).port = s.port := rfl
@[simp] theorem captureFrame_future : (captureFrame s).future = s.future := rfl
@[simp] theorem captureFrame_draws : (captureFrame s).draws = s.draws := rfl

@[simp] theorem advanceClk_config : (advanceClk s).config = s.config := rfl
@[simp] theorem advanceClk_cfg : (advanceClk s).cfg = s.cfg := rfl
@[simp] theorem advanceClk_mode : (advanceClk s).mode = s.mode := rfl
@[simp] theorem advanceClk_mgain : (advanceClk s).mgain = s.mgain := rfl
@[simp] theorem advanceClk_txcnt : (advanceClk s).txcnt = s.txcnt := rfl
@[simp] theorem advanceClk_nsym : (advanceClk s).nsym = s.nsym := rfl
@[simp] theorem advanceClk_t0 : (advanceClk s).t0 = s.t0 := rfl
@[simp] theorem advanceClk_txlen : (advanceClk s).txlen = s.txlen := rfl
@[simp] theorem advanceClk_tickcnt : (advanceClk s).tickcnt = s.tickcnt := rfl
@[simp] theorem advanceClk_rxshift : (advanceClk s).rxshift = s.rxshift := rfl
@[simp] theorem advanceClk_rxcnt : (advanceClk s).rxcnt = s.rxcnt := rfl
@[simp] theorem advanceClk_reading : (advanceClk s).reading = s.reading := rfl
@[simp] theorem advanceClk_events : (advanceClk s).events = s.events := rfl
@[simp] theorem advanceClk_irqen : (advanceClk s).irqen = s.irqen := rfl
@[simp] theorem advanceClk_err : (advanceClk s).err = s.err := rfl
@[simp] theorem advanceClk_clk : (advanceClk s).clk = (s.clk + 1) % 2 ^ s.config.clkw := rfl
@[simp] theorem advanceClk_clkhiLatch : (advanceClk s).clkhiLatch = s.clkhiLatch := rfl
@[simp] theorem advanceClk_txbuf : (advanceClk s).txbuf = s.txbuf := rfl
@[simp] theorem advanceClk_frame : (advanceClk s).frame = s.frame := rfl
@[simp] theorem advanceClk_rxfifo : (advanceClk s).rxfifo = s.rxfifo := rfl
@[simp] theorem advanceClk_rspValid : (advanceClk s).rspValid = s.rspValid := rfl
@[simp] theorem advanceClk_rsp : (advanceClk s).rsp = s.rsp := rfl
@[simp] theorem advanceClk_out : (advanceClk s).out = s.out := rfl
@[simp] theorem advanceClk_port : (advanceClk s).port = s.port := rfl
@[simp] theorem advanceClk_future : (advanceClk s).future = s.future := rfl
@[simp] theorem advanceClk_draws : (advanceClk s).draws = s.draws := rfl

@[simp] theorem driveOut_config (o : Int) : (driveOut o s).config = s.config := rfl
@[simp] theorem driveOut_cfg (o : Int) : (driveOut o s).cfg = s.cfg := rfl
@[simp] theorem driveOut_mode (o : Int) : (driveOut o s).mode = s.mode := rfl
@[simp] theorem driveOut_mgain (o : Int) : (driveOut o s).mgain = s.mgain := rfl
@[simp] theorem driveOut_txcnt (o : Int) : (driveOut o s).txcnt = s.txcnt := rfl
@[simp] theorem driveOut_nsym (o : Int) : (driveOut o s).nsym = s.nsym := rfl
@[simp] theorem driveOut_t0 (o : Int) : (driveOut o s).t0 = s.t0 := rfl
@[simp] theorem driveOut_txlen (o : Int) : (driveOut o s).txlen = s.txlen := rfl
@[simp] theorem driveOut_tickcnt (o : Int) : (driveOut o s).tickcnt = s.tickcnt := rfl
@[simp] theorem driveOut_rxshift (o : Int) : (driveOut o s).rxshift = s.rxshift := rfl
@[simp] theorem driveOut_rxcnt (o : Int) : (driveOut o s).rxcnt = s.rxcnt := rfl
@[simp] theorem driveOut_reading (o : Int) : (driveOut o s).reading = s.reading := rfl
@[simp] theorem driveOut_events (o : Int) : (driveOut o s).events = s.events := rfl
@[simp] theorem driveOut_irqen (o : Int) : (driveOut o s).irqen = s.irqen := rfl
@[simp] theorem driveOut_err (o : Int) : (driveOut o s).err = s.err := rfl
@[simp] theorem driveOut_clk (o : Int) : (driveOut o s).clk = s.clk := rfl
@[simp] theorem driveOut_clkhiLatch (o : Int) : (driveOut o s).clkhiLatch = s.clkhiLatch := rfl
@[simp] theorem driveOut_txbuf (o : Int) : (driveOut o s).txbuf = s.txbuf := rfl
@[simp] theorem driveOut_frame (o : Int) : (driveOut o s).frame = s.frame := rfl
@[simp] theorem driveOut_rxfifo (o : Int) : (driveOut o s).rxfifo = s.rxfifo := rfl
@[simp] theorem driveOut_rspValid (o : Int) : (driveOut o s).rspValid = s.rspValid := rfl
@[simp] theorem driveOut_rsp (o : Int) : (driveOut o s).rsp = s.rsp := rfl
@[simp] theorem driveOut_out (o : Int) : (driveOut o s).out = o := rfl
@[simp] theorem driveOut_port (o : Int) : (driveOut o s).port = s.port := rfl
@[simp] theorem driveOut_future (o : Int) : (driveOut o s).future = s.future := rfl
@[simp] theorem driveOut_draws (o : Int) : (driveOut o s).draws = s.draws := rfl

@[simp] theorem countTx_config : (countTx s).config = s.config := rfl
@[simp] theorem countTx_cfg : (countTx s).cfg = s.cfg := rfl
@[simp] theorem countTx_mode : (countTx s).mode = s.mode := rfl
@[simp] theorem countTx_mgain : (countTx s).mgain = s.mgain := rfl
@[simp] theorem countTx_txcnt : (countTx s).txcnt = s.txcnt + 1 := rfl
@[simp] theorem countTx_nsym : (countTx s).nsym = s.nsym := rfl
@[simp] theorem countTx_t0 : (countTx s).t0 = s.t0 := rfl
@[simp] theorem countTx_txlen : (countTx s).txlen = s.txlen := rfl
@[simp] theorem countTx_tickcnt : (countTx s).tickcnt = s.tickcnt := rfl
@[simp] theorem countTx_rxshift : (countTx s).rxshift = s.rxshift := rfl
@[simp] theorem countTx_rxcnt : (countTx s).rxcnt = s.rxcnt := rfl
@[simp] theorem countTx_reading : (countTx s).reading = s.reading := rfl
@[simp] theorem countTx_events : (countTx s).events = s.events := rfl
@[simp] theorem countTx_irqen : (countTx s).irqen = s.irqen := rfl
@[simp] theorem countTx_err : (countTx s).err = s.err := rfl
@[simp] theorem countTx_clk : (countTx s).clk = s.clk := rfl
@[simp] theorem countTx_clkhiLatch : (countTx s).clkhiLatch = s.clkhiLatch := rfl
@[simp] theorem countTx_txbuf : (countTx s).txbuf = s.txbuf := rfl
@[simp] theorem countTx_frame : (countTx s).frame = s.frame := rfl
@[simp] theorem countTx_rxfifo : (countTx s).rxfifo = s.rxfifo := rfl
@[simp] theorem countTx_rspValid : (countTx s).rspValid = s.rspValid := rfl
@[simp] theorem countTx_rsp : (countTx s).rsp = s.rsp := rfl
@[simp] theorem countTx_out : (countTx s).out = s.out := rfl
@[simp] theorem countTx_port : (countTx s).port = s.port := rfl
@[simp] theorem countTx_future : (countTx s).future = s.future := rfl
@[simp] theorem countTx_draws : (countTx s).draws = s.draws := rfl

@[simp] theorem setAccumulator_config (a : BitVec 8) (n : BitVec 3) : (setAccumulator a n s).config = s.config := rfl
@[simp] theorem setAccumulator_cfg (a : BitVec 8) (n : BitVec 3) : (setAccumulator a n s).cfg = s.cfg := rfl
@[simp] theorem setAccumulator_mode (a : BitVec 8) (n : BitVec 3) : (setAccumulator a n s).mode = s.mode := rfl
@[simp] theorem setAccumulator_mgain (a : BitVec 8) (n : BitVec 3) : (setAccumulator a n s).mgain = s.mgain := rfl
@[simp] theorem setAccumulator_txcnt (a : BitVec 8) (n : BitVec 3) : (setAccumulator a n s).txcnt = s.txcnt := rfl
@[simp] theorem setAccumulator_nsym (a : BitVec 8) (n : BitVec 3) : (setAccumulator a n s).nsym = s.nsym := rfl
@[simp] theorem setAccumulator_t0 (a : BitVec 8) (n : BitVec 3) : (setAccumulator a n s).t0 = s.t0 := rfl
@[simp] theorem setAccumulator_txlen (a : BitVec 8) (n : BitVec 3) : (setAccumulator a n s).txlen = s.txlen := rfl
@[simp] theorem setAccumulator_tickcnt (a : BitVec 8) (n : BitVec 3) : (setAccumulator a n s).tickcnt = s.tickcnt := rfl
@[simp] theorem setAccumulator_rxshift (a : BitVec 8) (n : BitVec 3) : (setAccumulator a n s).rxshift = a := rfl
@[simp] theorem setAccumulator_rxcnt (a : BitVec 8) (n : BitVec 3) : (setAccumulator a n s).rxcnt = n := rfl
@[simp] theorem setAccumulator_reading (a : BitVec 8) (n : BitVec 3) : (setAccumulator a n s).reading = s.reading := rfl
@[simp] theorem setAccumulator_events (a : BitVec 8) (n : BitVec 3) : (setAccumulator a n s).events = s.events := rfl
@[simp] theorem setAccumulator_irqen (a : BitVec 8) (n : BitVec 3) : (setAccumulator a n s).irqen = s.irqen := rfl
@[simp] theorem setAccumulator_err (a : BitVec 8) (n : BitVec 3) : (setAccumulator a n s).err = s.err := rfl
@[simp] theorem setAccumulator_clk (a : BitVec 8) (n : BitVec 3) : (setAccumulator a n s).clk = s.clk := rfl
@[simp] theorem setAccumulator_clkhiLatch (a : BitVec 8) (n : BitVec 3) : (setAccumulator a n s).clkhiLatch = s.clkhiLatch := rfl
@[simp] theorem setAccumulator_txbuf (a : BitVec 8) (n : BitVec 3) : (setAccumulator a n s).txbuf = s.txbuf := rfl
@[simp] theorem setAccumulator_frame (a : BitVec 8) (n : BitVec 3) : (setAccumulator a n s).frame = s.frame := rfl
@[simp] theorem setAccumulator_rxfifo (a : BitVec 8) (n : BitVec 3) : (setAccumulator a n s).rxfifo = s.rxfifo := rfl
@[simp] theorem setAccumulator_rspValid (a : BitVec 8) (n : BitVec 3) : (setAccumulator a n s).rspValid = s.rspValid := rfl
@[simp] theorem setAccumulator_rsp (a : BitVec 8) (n : BitVec 3) : (setAccumulator a n s).rsp = s.rsp := rfl
@[simp] theorem setAccumulator_out (a : BitVec 8) (n : BitVec 3) : (setAccumulator a n s).out = s.out := rfl
@[simp] theorem setAccumulator_port (a : BitVec 8) (n : BitVec 3) : (setAccumulator a n s).port = s.port := rfl
@[simp] theorem setAccumulator_future (a : BitVec 8) (n : BitVec 3) : (setAccumulator a n s).future = s.future := rfl
@[simp] theorem setAccumulator_draws (a : BitVec 8) (n : BitVec 3) : (setAccumulator a n s).draws = s.draws := rfl

@[simp] theorem setReading_config (r : Reading) : (setReading r s).config = s.config := rfl
@[simp] theorem setReading_cfg (r : Reading) : (setReading r s).cfg = s.cfg := rfl
@[simp] theorem setReading_mode (r : Reading) : (setReading r s).mode = s.mode := rfl
@[simp] theorem setReading_mgain (r : Reading) : (setReading r s).mgain = s.mgain := rfl
@[simp] theorem setReading_txcnt (r : Reading) : (setReading r s).txcnt = s.txcnt := rfl
@[simp] theorem setReading_nsym (r : Reading) : (setReading r s).nsym = s.nsym := rfl
@[simp] theorem setReading_t0 (r : Reading) : (setReading r s).t0 = s.t0 := rfl
@[simp] theorem setReading_txlen (r : Reading) : (setReading r s).txlen = s.txlen := rfl
@[simp] theorem setReading_tickcnt (r : Reading) : (setReading r s).tickcnt = s.tickcnt := rfl
@[simp] theorem setReading_rxshift (r : Reading) : (setReading r s).rxshift = s.rxshift := rfl
@[simp] theorem setReading_rxcnt (r : Reading) : (setReading r s).rxcnt = s.rxcnt := rfl
@[simp] theorem setReading_reading (r : Reading) : (setReading r s).reading = r := rfl
@[simp] theorem setReading_events (r : Reading) : (setReading r s).events = s.events := rfl
@[simp] theorem setReading_irqen (r : Reading) : (setReading r s).irqen = s.irqen := rfl
@[simp] theorem setReading_err (r : Reading) : (setReading r s).err = s.err := rfl
@[simp] theorem setReading_clk (r : Reading) : (setReading r s).clk = s.clk := rfl
@[simp] theorem setReading_clkhiLatch (r : Reading) : (setReading r s).clkhiLatch = s.clkhiLatch := rfl
@[simp] theorem setReading_txbuf (r : Reading) : (setReading r s).txbuf = s.txbuf := rfl
@[simp] theorem setReading_frame (r : Reading) : (setReading r s).frame = s.frame := rfl
@[simp] theorem setReading_rxfifo (r : Reading) : (setReading r s).rxfifo = s.rxfifo := rfl
@[simp] theorem setReading_rspValid (r : Reading) : (setReading r s).rspValid = s.rspValid := rfl
@[simp] theorem setReading_rsp (r : Reading) : (setReading r s).rsp = s.rsp := rfl
@[simp] theorem setReading_out (r : Reading) : (setReading r s).out = s.out := rfl
@[simp] theorem setReading_port (r : Reading) : (setReading r s).port = s.port := rfl
@[simp] theorem setReading_future (r : Reading) : (setReading r s).future = s.future := rfl
@[simp] theorem setReading_draws (r : Reading) : (setReading r s).draws = s.draws := rfl

@[simp] theorem setTickcnt_config (n : BitVec 24) : (setTickcnt n s).config = s.config := rfl
@[simp] theorem setTickcnt_cfg (n : BitVec 24) : (setTickcnt n s).cfg = s.cfg := rfl
@[simp] theorem setTickcnt_mode (n : BitVec 24) : (setTickcnt n s).mode = s.mode := rfl
@[simp] theorem setTickcnt_mgain (n : BitVec 24) : (setTickcnt n s).mgain = s.mgain := rfl
@[simp] theorem setTickcnt_txcnt (n : BitVec 24) : (setTickcnt n s).txcnt = s.txcnt := rfl
@[simp] theorem setTickcnt_nsym (n : BitVec 24) : (setTickcnt n s).nsym = s.nsym := rfl
@[simp] theorem setTickcnt_t0 (n : BitVec 24) : (setTickcnt n s).t0 = s.t0 := rfl
@[simp] theorem setTickcnt_txlen (n : BitVec 24) : (setTickcnt n s).txlen = s.txlen := rfl
@[simp] theorem setTickcnt_tickcnt (n : BitVec 24) : (setTickcnt n s).tickcnt = n := rfl
@[simp] theorem setTickcnt_rxshift (n : BitVec 24) : (setTickcnt n s).rxshift = s.rxshift := rfl
@[simp] theorem setTickcnt_rxcnt (n : BitVec 24) : (setTickcnt n s).rxcnt = s.rxcnt := rfl
@[simp] theorem setTickcnt_reading (n : BitVec 24) : (setTickcnt n s).reading = s.reading := rfl
@[simp] theorem setTickcnt_events (n : BitVec 24) : (setTickcnt n s).events = s.events := rfl
@[simp] theorem setTickcnt_irqen (n : BitVec 24) : (setTickcnt n s).irqen = s.irqen := rfl
@[simp] theorem setTickcnt_err (n : BitVec 24) : (setTickcnt n s).err = s.err := rfl
@[simp] theorem setTickcnt_clk (n : BitVec 24) : (setTickcnt n s).clk = s.clk := rfl
@[simp] theorem setTickcnt_clkhiLatch (n : BitVec 24) : (setTickcnt n s).clkhiLatch = s.clkhiLatch := rfl
@[simp] theorem setTickcnt_txbuf (n : BitVec 24) : (setTickcnt n s).txbuf = s.txbuf := rfl
@[simp] theorem setTickcnt_frame (n : BitVec 24) : (setTickcnt n s).frame = s.frame := rfl
@[simp] theorem setTickcnt_rxfifo (n : BitVec 24) : (setTickcnt n s).rxfifo = s.rxfifo := rfl
@[simp] theorem setTickcnt_rspValid (n : BitVec 24) : (setTickcnt n s).rspValid = s.rspValid := rfl
@[simp] theorem setTickcnt_rsp (n : BitVec 24) : (setTickcnt n s).rsp = s.rsp := rfl
@[simp] theorem setTickcnt_out (n : BitVec 24) : (setTickcnt n s).out = s.out := rfl
@[simp] theorem setTickcnt_port (n : BitVec 24) : (setTickcnt n s).port = s.port := rfl
@[simp] theorem setTickcnt_future (n : BitVec 24) : (setTickcnt n s).future = s.future := rfl
@[simp] theorem setTickcnt_draws (n : BitVec 24) : (setTickcnt n s).draws = s.draws := rfl

@[simp] theorem withCommand_config (w : Word) : (withCommand w s).config = s.config := rfl
@[simp] theorem withCommand_cfg (w : Word) : (withCommand w s).cfg = s.cfg := rfl
@[simp] theorem withCommand_mode (w : Word) : (withCommand w s).mode = s.mode := rfl
@[simp] theorem withCommand_mgain (w : Word) : (withCommand w s).mgain = s.mgain := rfl
@[simp] theorem withCommand_txcnt (w : Word) : (withCommand w s).txcnt = s.txcnt := rfl
@[simp] theorem withCommand_nsym (w : Word) : (withCommand w s).nsym = s.nsym := rfl
@[simp] theorem withCommand_t0 (w : Word) : (withCommand w s).t0 = s.t0 := rfl
@[simp] theorem withCommand_txlen (w : Word) : (withCommand w s).txlen = s.txlen := rfl
@[simp] theorem withCommand_tickcnt (w : Word) : (withCommand w s).tickcnt = s.tickcnt := rfl
@[simp] theorem withCommand_rxshift (w : Word) : (withCommand w s).rxshift = s.rxshift := rfl
@[simp] theorem withCommand_rxcnt (w : Word) : (withCommand w s).rxcnt = s.rxcnt := rfl
@[simp] theorem withCommand_reading (w : Word) : (withCommand w s).reading = s.reading := rfl
@[simp] theorem withCommand_events (w : Word) : (withCommand w s).events = s.events := rfl
@[simp] theorem withCommand_irqen (w : Word) : (withCommand w s).irqen = s.irqen := rfl
@[simp] theorem withCommand_err (w : Word) : (withCommand w s).err = s.err := rfl
@[simp] theorem withCommand_clk (w : Word) : (withCommand w s).clk = s.clk := rfl
@[simp] theorem withCommand_clkhiLatch (w : Word) : (withCommand w s).clkhiLatch = s.clkhiLatch := rfl
@[simp] theorem withCommand_txbuf (w : Word) : (withCommand w s).txbuf = s.txbuf := rfl
@[simp] theorem withCommand_frame (w : Word) : (withCommand w s).frame = s.frame := rfl
@[simp] theorem withCommand_rxfifo (w : Word) : (withCommand w s).rxfifo = s.rxfifo := rfl
@[simp] theorem withCommand_rspValid (w : Word) : (withCommand w s).rspValid = s.rspValid := rfl
@[simp] theorem withCommand_rsp (w : Word) : (withCommand w s).rsp = s.rsp := rfl
@[simp] theorem withCommand_out (w : Word) : (withCommand w s).out = s.out := rfl
@[simp] theorem withCommand_port (w : Word) : (withCommand w s).port = { s.port with rst := false, cmd := some w } := rfl
@[simp] theorem withCommand_future (w : Word) : (withCommand w s).future = s.future := rfl
@[simp] theorem withCommand_draws (w : Word) : (withCommand w s).draws = s.draws := rfl

@[simp] theorem nextPeriod_config : (nextPeriod s).config = s.config := by unfold nextPeriod; split <;> rfl
@[simp] theorem nextPeriod_cfg : (nextPeriod s).cfg = s.cfg := by unfold nextPeriod; split <;> rfl
@[simp] theorem nextPeriod_mode : (nextPeriod s).mode = s.mode := by unfold nextPeriod; split <;> rfl
@[simp] theorem nextPeriod_mgain : (nextPeriod s).mgain = s.mgain := by unfold nextPeriod; split <;> rfl
@[simp] theorem nextPeriod_txcnt : (nextPeriod s).txcnt = s.txcnt := by unfold nextPeriod; split <;> rfl
@[simp] theorem nextPeriod_nsym : (nextPeriod s).nsym = s.nsym := by unfold nextPeriod; split <;> rfl
@[simp] theorem nextPeriod_t0 : (nextPeriod s).t0 = s.t0 := by unfold nextPeriod; split <;> rfl
@[simp] theorem nextPeriod_txlen : (nextPeriod s).txlen = s.txlen := by unfold nextPeriod; split <;> rfl
@[simp] theorem nextPeriod_tickcnt : (nextPeriod s).tickcnt = s.tickcnt := by unfold nextPeriod; split <;> rfl
@[simp] theorem nextPeriod_rxshift : (nextPeriod s).rxshift = s.rxshift := by unfold nextPeriod; split <;> rfl
@[simp] theorem nextPeriod_rxcnt : (nextPeriod s).rxcnt = s.rxcnt := by unfold nextPeriod; split <;> rfl
@[simp] theorem nextPeriod_reading : (nextPeriod s).reading = s.reading := by unfold nextPeriod; split <;> rfl
@[simp] theorem nextPeriod_events : (nextPeriod s).events = s.events := by unfold nextPeriod; split <;> rfl
@[simp] theorem nextPeriod_irqen : (nextPeriod s).irqen = s.irqen := by unfold nextPeriod; split <;> rfl
@[simp] theorem nextPeriod_err : (nextPeriod s).err = s.err := by unfold nextPeriod; split <;> rfl
@[simp] theorem nextPeriod_clk : (nextPeriod s).clk = s.clk := by unfold nextPeriod; split <;> rfl
@[simp] theorem nextPeriod_clkhiLatch : (nextPeriod s).clkhiLatch = s.clkhiLatch := by unfold nextPeriod; split <;> rfl
@[simp] theorem nextPeriod_txbuf : (nextPeriod s).txbuf = s.txbuf := by unfold nextPeriod; split <;> rfl
@[simp] theorem nextPeriod_frame : (nextPeriod s).frame = s.frame := by unfold nextPeriod; split <;> rfl
@[simp] theorem nextPeriod_rxfifo : (nextPeriod s).rxfifo = s.rxfifo := by unfold nextPeriod; split <;> rfl
@[simp] theorem nextPeriod_rspValid : (nextPeriod s).rspValid = s.rspValid := by unfold nextPeriod; split <;> rfl
@[simp] theorem nextPeriod_rsp : (nextPeriod s).rsp = s.rsp := by unfold nextPeriod; split <;> rfl
@[simp] theorem nextPeriod_out : (nextPeriod s).out = s.out := by unfold nextPeriod; split <;> rfl
@[simp] theorem nextPeriod_draws : (nextPeriod s).draws = s.draws + 1 := by unfold nextPeriod; split <;> rfl

@[simp] theorem cfgWrite_config (r : CfgReg) (v : CfgWord) : (cfgWrite r v s).config = s.config := by cases r <;> rfl
@[simp] theorem cfgWrite_mode (r : CfgReg) (v : CfgWord) : (cfgWrite r v s).mode = s.mode := by cases r <;> rfl
@[simp] theorem cfgWrite_mgain (r : CfgReg) (v : CfgWord) : (cfgWrite r v s).mgain = s.mgain := by cases r <;> rfl
@[simp] theorem cfgWrite_txcnt (r : CfgReg) (v : CfgWord) : (cfgWrite r v s).txcnt = s.txcnt := by cases r <;> rfl
@[simp] theorem cfgWrite_nsym (r : CfgReg) (v : CfgWord) : (cfgWrite r v s).nsym = s.nsym := by cases r <;> rfl
@[simp] theorem cfgWrite_t0 (r : CfgReg) (v : CfgWord) : (cfgWrite r v s).t0 = s.t0 := by cases r <;> rfl
@[simp] theorem cfgWrite_txlen (r : CfgReg) (v : CfgWord) : (cfgWrite r v s).txlen = s.txlen := by cases r <;> rfl
@[simp] theorem cfgWrite_tickcnt (r : CfgReg) (v : CfgWord) : (cfgWrite r v s).tickcnt = s.tickcnt := by cases r <;> rfl
@[simp] theorem cfgWrite_rxshift (r : CfgReg) (v : CfgWord) : (cfgWrite r v s).rxshift = s.rxshift := by cases r <;> rfl
@[simp] theorem cfgWrite_rxcnt (r : CfgReg) (v : CfgWord) : (cfgWrite r v s).rxcnt = s.rxcnt := by cases r <;> rfl
@[simp] theorem cfgWrite_reading (r : CfgReg) (v : CfgWord) : (cfgWrite r v s).reading = s.reading := by cases r <;> rfl
@[simp] theorem cfgWrite_events (r : CfgReg) (v : CfgWord) : (cfgWrite r v s).events = s.events := by cases r <;> rfl
@[simp] theorem cfgWrite_irqen (r : CfgReg) (v : CfgWord) : (cfgWrite r v s).irqen = s.irqen := by cases r <;> rfl
@[simp] theorem cfgWrite_err (r : CfgReg) (v : CfgWord) : (cfgWrite r v s).err = s.err := by cases r <;> rfl
@[simp] theorem cfgWrite_clk (r : CfgReg) (v : CfgWord) : (cfgWrite r v s).clk = s.clk := by cases r <;> rfl
@[simp] theorem cfgWrite_clkhiLatch (r : CfgReg) (v : CfgWord) : (cfgWrite r v s).clkhiLatch = s.clkhiLatch := by cases r <;> rfl
@[simp] theorem cfgWrite_txbuf (r : CfgReg) (v : CfgWord) : (cfgWrite r v s).txbuf = s.txbuf := by cases r <;> rfl
@[simp] theorem cfgWrite_frame (r : CfgReg) (v : CfgWord) : (cfgWrite r v s).frame = s.frame := by cases r <;> rfl
@[simp] theorem cfgWrite_rxfifo (r : CfgReg) (v : CfgWord) : (cfgWrite r v s).rxfifo = s.rxfifo := by cases r <;> rfl
@[simp] theorem cfgWrite_rspValid (r : CfgReg) (v : CfgWord) : (cfgWrite r v s).rspValid = s.rspValid := by cases r <;> rfl
@[simp] theorem cfgWrite_rsp (r : CfgReg) (v : CfgWord) : (cfgWrite r v s).rsp = s.rsp := by cases r <;> rfl
@[simp] theorem cfgWrite_out (r : CfgReg) (v : CfgWord) : (cfgWrite r v s).out = s.out := by cases r <;> rfl
@[simp] theorem cfgWrite_port (r : CfgReg) (v : CfgWord) : (cfgWrite r v s).port = s.port := by cases r <;> rfl
@[simp] theorem cfgWrite_future (r : CfgReg) (v : CfgWord) : (cfgWrite r v s).future = s.future := by cases r <;> rfl
@[simp] theorem cfgWrite_draws (r : CfgReg) (v : CfgWord) : (cfgWrite r v s).draws = s.draws := by cases r <;> rfl

@[simp] theorem push_config (c : Byte) : (push c s).config = s.config := by unfold push; split <;> rfl
@[simp] theorem push_cfg (c : Byte) : (push c s).cfg = s.cfg := by unfold push; split <;> rfl
@[simp] theorem push_mode (c : Byte) : (push c s).mode = s.mode := by unfold push; split <;> rfl
@[simp] theorem push_mgain (c : Byte) : (push c s).mgain = s.mgain := by unfold push; split <;> rfl
@[simp] theorem push_txcnt (c : Byte) : (push c s).txcnt = s.txcnt := by unfold push; split <;> rfl
@[simp] theorem push_nsym (c : Byte) : (push c s).nsym = s.nsym := by unfold push; split <;> rfl
@[simp] theorem push_t0 (c : Byte) : (push c s).t0 = s.t0 := by unfold push; split <;> rfl
@[simp] theorem push_txlen (c : Byte) : (push c s).txlen = s.txlen := by unfold push; split <;> rfl
@[simp] theorem push_tickcnt (c : Byte) : (push c s).tickcnt = s.tickcnt := by unfold push; split <;> rfl
@[simp] theorem push_rxshift (c : Byte) : (push c s).rxshift = s.rxshift := by unfold push; split <;> rfl
@[simp] theorem push_rxcnt (c : Byte) : (push c s).rxcnt = s.rxcnt := by unfold push; split <;> rfl
@[simp] theorem push_reading (c : Byte) : (push c s).reading = s.reading := by unfold push; split <;> rfl
@[simp] theorem push_irqen (c : Byte) : (push c s).irqen = s.irqen := by unfold push; split <;> rfl
@[simp] theorem push_clk (c : Byte) : (push c s).clk = s.clk := by unfold push; split <;> rfl
@[simp] theorem push_clkhiLatch (c : Byte) : (push c s).clkhiLatch = s.clkhiLatch := by unfold push; split <;> rfl
@[simp] theorem push_txbuf (c : Byte) : (push c s).txbuf = s.txbuf := by unfold push; split <;> rfl
@[simp] theorem push_frame (c : Byte) : (push c s).frame = s.frame := by unfold push; split <;> rfl
@[simp] theorem push_rspValid (c : Byte) : (push c s).rspValid = s.rspValid := by unfold push; split <;> rfl
@[simp] theorem push_rsp (c : Byte) : (push c s).rsp = s.rsp := by unfold push; split <;> rfl
@[simp] theorem push_out (c : Byte) : (push c s).out = s.out := by unfold push; split <;> rfl
@[simp] theorem push_port (c : Byte) : (push c s).port = s.port := by unfold push; split <;> rfl
@[simp] theorem push_future (c : Byte) : (push c s).future = s.future := by unfold push; split <;> rfl
@[simp] theorem push_draws (c : Byte) : (push c s).draws = s.draws := by unfold push; split <;> rfl

@[simp] theorem statusLatch_config (r : SReg) : (statusLatch r s).config = s.config := by unfold statusLatch; split <;> rfl
@[simp] theorem statusLatch_cfg (r : SReg) : (statusLatch r s).cfg = s.cfg := by unfold statusLatch; split <;> rfl
@[simp] theorem statusLatch_mode (r : SReg) : (statusLatch r s).mode = s.mode := by unfold statusLatch; split <;> rfl
@[simp] theorem statusLatch_mgain (r : SReg) : (statusLatch r s).mgain = s.mgain := by unfold statusLatch; split <;> rfl
@[simp] theorem statusLatch_txcnt (r : SReg) : (statusLatch r s).txcnt = s.txcnt := by unfold statusLatch; split <;> rfl
@[simp] theorem statusLatch_nsym (r : SReg) : (statusLatch r s).nsym = s.nsym := by unfold statusLatch; split <;> rfl
@[simp] theorem statusLatch_t0 (r : SReg) : (statusLatch r s).t0 = s.t0 := by unfold statusLatch; split <;> rfl
@[simp] theorem statusLatch_txlen (r : SReg) : (statusLatch r s).txlen = s.txlen := by unfold statusLatch; split <;> rfl
@[simp] theorem statusLatch_tickcnt (r : SReg) : (statusLatch r s).tickcnt = s.tickcnt := by unfold statusLatch; split <;> rfl
@[simp] theorem statusLatch_rxshift (r : SReg) : (statusLatch r s).rxshift = s.rxshift := by unfold statusLatch; split <;> rfl
@[simp] theorem statusLatch_rxcnt (r : SReg) : (statusLatch r s).rxcnt = s.rxcnt := by unfold statusLatch; split <;> rfl
@[simp] theorem statusLatch_reading (r : SReg) : (statusLatch r s).reading = s.reading := by unfold statusLatch; split <;> rfl
@[simp] theorem statusLatch_events (r : SReg) : (statusLatch r s).events = s.events := by unfold statusLatch; split <;> rfl
@[simp] theorem statusLatch_irqen (r : SReg) : (statusLatch r s).irqen = s.irqen := by unfold statusLatch; split <;> rfl
@[simp] theorem statusLatch_err (r : SReg) : (statusLatch r s).err = s.err := by unfold statusLatch; split <;> rfl
@[simp] theorem statusLatch_clk (r : SReg) : (statusLatch r s).clk = s.clk := by unfold statusLatch; split <;> rfl
@[simp] theorem statusLatch_clkhiLatch (r : SReg) : (statusLatch r s).clkhiLatch = if r = .clklo then clockHigh s.clk else s.clkhiLatch := by unfold statusLatch; split <;> rfl
@[simp] theorem statusLatch_txbuf (r : SReg) : (statusLatch r s).txbuf = s.txbuf := by unfold statusLatch; split <;> rfl
@[simp] theorem statusLatch_frame (r : SReg) : (statusLatch r s).frame = s.frame := by unfold statusLatch; split <;> rfl
@[simp] theorem statusLatch_rxfifo (r : SReg) : (statusLatch r s).rxfifo = s.rxfifo := by unfold statusLatch; split <;> rfl
@[simp] theorem statusLatch_rspValid (r : SReg) : (statusLatch r s).rspValid = s.rspValid := by unfold statusLatch; split <;> rfl
@[simp] theorem statusLatch_rsp (r : SReg) : (statusLatch r s).rsp = s.rsp := by unfold statusLatch; split <;> rfl
@[simp] theorem statusLatch_out (r : SReg) : (statusLatch r s).out = s.out := by unfold statusLatch; split <;> rfl
@[simp] theorem statusLatch_port (r : SReg) : (statusLatch r s).port = s.port := by unfold statusLatch; split <;> rfl
@[simp] theorem statusLatch_future (r : SReg) : (statusLatch r s).future = s.future := by unfold statusLatch; split <;> rfl
@[simp] theorem statusLatch_draws (r : SReg) : (statusLatch r s).draws = s.draws := by unfold statusLatch; split <;> rfl

@[simp] theorem resetBlock_config : (resetBlock s).config = s.config := by rfl
@[simp] theorem resetBlock_cfg : (resetBlock s).cfg = CfgRegs.initial s.config := by rfl
@[simp] theorem resetBlock_mode : (resetBlock s).mode = .idle := by rfl
@[simp] theorem resetBlock_mgain : (resetBlock s).mgain = 0 := by rfl
@[simp] theorem resetBlock_txcnt : (resetBlock s).txcnt = 0 := by rfl
@[simp] theorem resetBlock_nsym : (resetBlock s).nsym = 0 := by rfl
@[simp] theorem resetBlock_t0 : (resetBlock s).t0 = 0 := by rfl
@[simp] theorem resetBlock_txlen : (resetBlock s).txlen = 0 := by rfl
@[simp] theorem resetBlock_tickcnt : (resetBlock s).tickcnt = 0 := by rfl
@[simp] theorem resetBlock_rxshift : (resetBlock s).rxshift = 0 := by rfl
@[simp] theorem resetBlock_rxcnt : (resetBlock s).rxcnt = 0 := by rfl
@[simp] theorem resetBlock_reading : (resetBlock s).reading = ⟨false, 0, 0⟩ := by rfl
@[simp] theorem resetBlock_events : (resetBlock s).events = 0 := by rfl
@[simp] theorem resetBlock_irqen : (resetBlock s).irqen = 0 := by rfl
@[simp] theorem resetBlock_err : (resetBlock s).err = 0 := by rfl
@[simp] theorem resetBlock_clk : (resetBlock s).clk = 0 := by rfl
@[simp] theorem resetBlock_clkhiLatch : (resetBlock s).clkhiLatch = 0 := by rfl
@[simp] theorem resetBlock_txbuf : (resetBlock s).txbuf = [] := by rfl
@[simp] theorem resetBlock_frame : (resetBlock s).frame = [] := by rfl
@[simp] theorem resetBlock_rxfifo : (resetBlock s).rxfifo = [] := by rfl
@[simp] theorem resetBlock_rspValid : (resetBlock s).rspValid = false := by rfl
@[simp] theorem resetBlock_rsp : (resetBlock s).rsp = ⟨0, 0⟩ := by rfl
@[simp] theorem resetBlock_out : (resetBlock s).out = 0 := by rfl
@[simp] theorem resetBlock_port : (resetBlock s).port = s.port := by rfl
@[simp] theorem resetBlock_future : (resetBlock s).future = s.future := by rfl
@[simp] theorem resetBlock_draws : (resetBlock s).draws = s.draws := by rfl

end Sys2Proof.Machine
end

