-- ==== Sys2Proof/Laws/Commands.lean ====
section
/-! SUPPORT. Everything a command can do, said once: `exec_cases` inverts `exec`, and `commandPart_cases`,
`tick_cases` and `step_cases` invert a whole period. Later proofs cite these and unfold no meaning. -/

namespace Sys2Proof.Machine

/-- The state a command can leave, but for the response port. -/
inductive CommandEffect : Instr → State → State → Prop
  /-- Nothing changed: a failure, a no-op or a read. -/
  | same (i : Instr) (s : State) : CommandEffect i s s
  | setcfg {s : State} {r : BitVec 4} {reg : CfgReg} {v : CfgWord} : cfgRegOf r = some reg → s.mode = .idle →
      legal s.config reg v = true → CommandEffect (.setcfg r v) s (cfgWrite reg v s)
  | txput {s : State} (c : Byte) : s.mode = .idle → s.txlen < s.config.txbufLen →
      CommandEffect (.txput c) s { s with txbuf := memWrite s.txbuf s.txlen c, txlen := s.txlen + 1 }
  | txclr {s : State} : s.mode = .idle → CommandEffect .txclr s { s with txlen := 0 }
  | transmit {s : State} {text : List Byte} : s.mode = .idle → s.port.sinkRdy = true →
      memReadRange s.txbuf 0 s.txlen = .ok text → text.all isAscii = true →
      CommandEffect .transmit s (startTransmit s)
  | txstop {s : State} : s.mode = .transmitting → CommandEffect .txstop s (endTransmit s)
  | listen {s : State} : s.mode = .idle → s.port.inOk = true → CommandEffect .listen s (startListen s)
  | rxstop {s : State} : s.mode = .listening → CommandEffect .rxstop s (endListen s)
  | rxget {s : State} {c : Byte} {rest : List Byte} : s.rxfifo = c :: rest →
      CommandEffect .rxget s { s with rxfifo := rest }
  | getsr {s : State} (n : BitVec 4) : CommandEffect (.getsr n) s (statusLatch (sregOf n) s)
  | evclr {s : State} (m : BitVec 4) : CommandEffect (.evclr m) s { s with events := s.events &&& ~~~m }
  | irqen {s : State} (m : BitVec 4) : CommandEffect (.irqen m) s { s with irqen := m }

/-- A command step answers a response and one of the effects above; a status other than `OK` is the code
of a cause, with data 0 and no effect (R211). -/
def CommandDone (i : Instr) (s t : State) : Prop :=
  (∃ d e, t = answer 0 d e ∧ CommandEffect i s e) ∨ ∃ c, t = answer (causeCode c) 0 s ∧
    (c = .notReady ∨ c = .busy ∨ c = .deviceError ∨ c = .encodingError ∨ c = .illegalCommand ∨ c = .badValue ∨
      c = .locked ∨ c = .bufFull ∨ c = .rxEmpty)

theorem respond_eq_next {d : Word} {e t : State} (h : respond d e = .next t) : t = answer 0 d e := by
  simpa [respond, eq_comm] using h

theorem raise_eq_next {c : Cause} {s t : State} (h : raise c s = .next t) : t = answer (causeCode c) 0 s := by
  simpa [raise, eq_comm] using h

theorem execSetcfg_cases {r : BitVec 4} {v : CfgWord} {s t : State} (h : execSetcfg r v s = .next t) :
    CommandDone (.setcfg r v) s t := by
  unfold execSetcfg at h
  cases hr : cfgRegOf r with
  | none => rw [hr] at h; exact .inr ⟨_, raise_eq_next h, by simp⟩
  | some reg =>
    simp only [hr] at h
    split at h
    · exact .inr ⟨_, raise_eq_next h, by simp⟩
    · split at h
      · exact .inr ⟨_, raise_eq_next h, by simp⟩
      · next hm hl => exact .inl ⟨_, _, respond_eq_next h, .setcfg hr (by simpa using hm) (by simpa using hl)⟩

theorem execGetcfg_cases {r : BitVec 4} {s t : State} (h : execGetcfg r s = .next t) :
    CommandDone (.getcfg r) s t := by
  unfold execGetcfg at h
  split at h
  · exact .inr ⟨_, raise_eq_next h, by simp⟩
  · exact .inl ⟨_, _, respond_eq_next h, .same _ _⟩

theorem execTxput_cases {c : Byte} {s t : State} (h : execTxput c s = .next t) : CommandDone (.txput c) s t := by
  unfold execTxput at h
  split at h
  · exact .inr ⟨_, raise_eq_next h, by simp⟩
  · split at h
    · exact .inr ⟨_, raise_eq_next h, by simp⟩
    · split at h
      · cases h
      · next hm h1 h2 => exact .inl ⟨_, _, respond_eq_next h, .txput c (by simpa using hm) (by omega)⟩

theorem execTxclr_cases {s t : State} (h : execTxclr s = .next t) : CommandDone .txclr s t := by
  unfold execTxclr at h
  split at h
  · exact .inr ⟨_, raise_eq_next h, by simp⟩
  · next hm => exact .inl ⟨_, _, respond_eq_next h, .txclr (by simpa using hm)⟩

theorem execTransmit_cases {s t : State} (h : execTransmit s = .next t) : CommandDone .transmit s t := by
  unfold execTransmit at h
  split at h
  · exact .inr ⟨_, raise_eq_next h, by simp⟩
  · split at h
    · exact .inr ⟨_, raise_eq_next h, by simp⟩
    · next hm hs =>
      split at h
      · cases h
      · next text ht =>
        split at h
        · next ha => exact .inl ⟨_, _, respond_eq_next h, .transmit (by simpa using hm) (by simpa using hs) ht ha⟩
        · exact .inr ⟨_, raise_eq_next h, by simp⟩

theorem execTxstop_cases {s t : State} (h : execTxstop s = .next t) : CommandDone .txstop s t := by
  unfold execTxstop at h
  split at h
  · next hm => exact .inl ⟨_, _, respond_eq_next h, .txstop hm⟩
  · exact .inl ⟨_, _, respond_eq_next h, .same _ _⟩
  · exact .inl ⟨_, _, respond_eq_next h, .same _ _⟩

theorem execListen_cases {s t : State} (h : execListen s = .next t) : CommandDone .listen s t := by
  unfold execListen at h
  split at h
  · exact .inr ⟨_, raise_eq_next h, by simp⟩
  · split at h
    · exact .inr ⟨_, raise_eq_next h, by simp⟩
    · next hm hi => exact .inl ⟨_, _, respond_eq_next h, .listen (by simpa using hm) (by simpa using hi)⟩

theorem execRxstop_cases {s t : State} (h : execRxstop s = .next t) : CommandDone .rxstop s t := by
  unfold execRxstop at h
  split at h
  · next hm => exact .inl ⟨_, _, respond_eq_next h, .rxstop hm⟩
  · exact .inl ⟨_, _, respond_eq_next h, .same _ _⟩
  · exact .inl ⟨_, _, respond_eq_next h, .same _ _⟩

theorem execRxget_cases {s t : State} (h : execRxget s = .next t) : CommandDone .rxget s t := by
  unfold execRxget at h
  split at h
  · exact .inr ⟨_, raise_eq_next h, by simp⟩
  · next hq => exact .inl ⟨_, _, respond_eq_next h, .rxget hq⟩

theorem exec_cases {i : Instr} {s t : State} (h : exec i s = .next t) : CommandDone i s t := by
  cases i with
  | nop => exact .inl ⟨_, _, respond_eq_next h, .same _ _⟩
  | setcfg r v => exact execSetcfg_cases h
  | getcfg r => exact execGetcfg_cases h
  | txput c => exact execTxput_cases h
  | txclr => exact execTxclr_cases h
  | transmit => exact execTransmit_cases h
  | txstop => exact execTxstop_cases h
  | listen => exact execListen_cases h
  | rxstop => exact execRxstop_cases h
  | rxget => exact execRxget_cases h
  | getsr n => exact .inl ⟨_, _, respond_eq_next h, .getsr n⟩
  | evclr m => exact .inl ⟨_, _, respond_eq_next h, .evclr m⟩
  | irqen m => exact .inl ⟨_, _, respond_eq_next h, .irqen m⟩

/-! ## A whole period -/

theorem andThen_eq_next {o : Result} {f : State → Result} {t : State} :
    andThen o f = .next t ↔ ∃ u, o = .next u ∧ f u = .next t := by
  cases o <;> simp [andThen]

theorem commandPart_cases {s u : State} (h : commandPart s = .next u) :
    (s.port.cmd = none ∧ u = noResponse s) ∨
    ∃ w, s.port.cmd = some w ∧
      ((decode w = none ∧ u = answer 0x10 0 s) ∨ ∃ i, decode w = some i ∧ exec i s = .next u) := by
  unfold commandPart fetch at h
  cases hc : s.port.cmd with
  | none =>
    rw [hc] at h
    exact .inl ⟨rfl, by simpa [eq_comm] using h⟩
  | some w =>
    rw [hc] at h
    refine .inr ⟨w, rfl, ?_⟩
    simp only [commandWord] at h
    cases hd : decode w with
    | none => rw [hd] at h; exact .inl ⟨rfl, raise_eq_next h⟩
    | some i => rw [hd] at h; exact .inr ⟨i, rfl, h⟩

/-- What no command step changes. -/
structure CommandFrame (s t : State) : Prop where
  config : t.config = s.config
  clk : t.clk = s.clk
  err : t.err = s.err
  frame : t.frame = s.frame
  out : t.out = s.out
  port : t.port = s.port
  future : t.future = s.future
  draws : t.draws = s.draws

theorem CommandEffect.frame {i : Instr} {s t : State} (h : CommandEffect i s t) : CommandFrame s t := by
  cases h <;> constructor <;> simp

theorem commandPart_frame {s u : State} (h : commandPart s = .next u) : CommandFrame s u := by
  rcases commandPart_cases h with ⟨_, rfl⟩ | ⟨w, _, ⟨_, rfl⟩ | ⟨i, _, hi⟩⟩
  · constructor <;> rfl
  · constructor <;> rfl
  · rcases exec_cases hi with ⟨d, e, rfl, he⟩ | ⟨c, rfl, _⟩
    · have := he.frame
      exact ⟨this.config, this.clk, this.err, this.frame, this.out, this.port, this.future, this.draws⟩
    · constructor <;> rfl

theorem tick_cases {s t : State} (h : tick s = .next t) :
    ∃ o, toneOut s = .ok o ∧ t = advanceClk (timers (driveOut o s)) := by
  unfold tick at h
  cases ho : toneOut s with
  | error f => rw [ho] at h; cases h
  | ok o => rw [ho] at h; exact ⟨o, rfl, by simpa [eq_comm] using h⟩

theorem tick_of_ok {s : State} {o : Int} (h : toneOut s = .ok o) :
    tick s = .next (advanceClk (timers (driveOut o s))) := by
  simp [tick, h]

theorem step_cases {s t : State} (h : step s = .next t) :
    (s.port.rst = true ∧ t = nextPeriod (resetBlock s)) ∨
    (s.port.rst = false ∧ ∃ u v, commandPart s = .next u ∧ tick u = .next v ∧ t = nextPeriod v) := by
  unfold step at h
  cases hr : s.port.rst with
  | true => simp only [hr, if_true] at h; exact .inl ⟨rfl, by simpa [eq_comm] using h⟩
  | false =>
    rw [if_neg (by simp [hr])] at h
    obtain ⟨u, hu, h⟩ := andThen_eq_next.1 h
    obtain ⟨v, hv, h⟩ := andThen_eq_next.1 h
    exact .inr ⟨rfl, u, v, hu, hv, by simpa [eq_comm] using h⟩

/-- The two ends of a period: the first listed inputs, or free ones (log 2). -/
theorem nextPeriod_cases (s : State) :
    (s.future = [] ∧ nextPeriod s = { s with port := freePorts s.draws, draws := s.draws + 1 }) ∨
    ∃ p rest, s.future = p :: rest ∧ nextPeriod s = { s with port := p, future := rest, draws := s.draws + 1 } := by
  unfold nextPeriod
  cases h : s.future with
  | nil => exact .inl ⟨rfl, by simp⟩
  | cons p rest => exact .inr ⟨p, rest, rfl, rfl⟩

theorem step_of_parts {s u v : State} (hr : s.port.rst = false) (hu : commandPart s = .next u)
    (hv : tick u = .next v) : step s = .next (nextPeriod v) := by
  simp [step, hr, hu, hv, andThen]

end Sys2Proof.Machine
end

