-- ==== Sys2Proof/Laws/Word.lean ====
section
/-! SUPPORT. The three fields of a command word (R81): a word is its fields, and each field of a word
built from fields is the field it was built from. -/

namespace Sys2Proof

@[simp] theorem opField_fieldsWord (op r : BitVec 4) (imm : BitVec 24) : opField (fieldsWord op r imm) = op := by
  apply BitVec.eq_of_getLsbD_eq
  intro i hi
  simp only [opField, fieldsWord, BitVec.getLsbD_extractLsb', BitVec.getLsbD_append]
  simp [hi, show ¬ 28 + i < 24 by omega, show ¬ 28 + i - 24 < 4 by omega, show 28 + i - 24 - 4 = i by omega]

@[simp] theorem rField_fieldsWord (op r : BitVec 4) (imm : BitVec 24) : rField (fieldsWord op r imm) = r := by
  apply BitVec.eq_of_getLsbD_eq
  intro i hi
  simp only [rField, fieldsWord, BitVec.getLsbD_extractLsb', BitVec.getLsbD_append]
  simp [hi]

@[simp] theorem immField_fieldsWord (op r : BitVec 4) (imm : BitVec 24) :
    immField (fieldsWord op r imm) = imm := by
  apply BitVec.eq_of_getLsbD_eq
  intro i hi
  simp only [immField, fieldsWord, BitVec.getLsbD_extractLsb', BitVec.getLsbD_append]
  simp [hi]

theorem fieldsWord_of_fields (w : Word) : fieldsWord (opField w) (rField w) (immField w) = w := by
  apply BitVec.eq_of_getLsbD_eq
  intro i hi
  simp only [opField, rField, immField, fieldsWord, BitVec.getLsbD_extractLsb', BitVec.getLsbD_append]
  by_cases h1 : i < 24
  · simp [h1]
  · by_cases h2 : i - 24 < 4
    · simp [h1, h2, show 24 + (i - 24) = i by omega]
    · simp [h1, h2, show i - 24 - 4 < 4 by omega, show 28 + (i - 24 - 4) = i by omega]

theorem word_ext_fields {w v : Word} (ho : opField w = opField v) (hr : rField w = rField v)
    (hi : immField w = immField v) : w = v := by
  rw [← fieldsWord_of_fields w, ← fieldsWord_of_fields v, ho, hr, hi]

@[simp] theorem low8_zero_append (c : Byte) : (0#16 ++ c).extractLsb' 0 8 = c := by
  apply BitVec.eq_of_getLsbD_eq
  intro i hi
  simp only [BitVec.getLsbD_extractLsb', BitVec.getLsbD_append]
  simp [hi]

@[simp] theorem high16_zero_append (c : Byte) : (0#16 ++ c).extractLsb' 8 16 = 0 := by
  apply BitVec.eq_of_getLsbD_eq
  intro i hi
  simp only [BitVec.getLsbD_extractLsb', BitVec.getLsbD_append]
  simp

@[simp] theorem low4_zero_append (m : BitVec 4) : (0#20 ++ m).extractLsb' 0 4 = m := by
  apply BitVec.eq_of_getLsbD_eq
  intro i hi
  simp only [BitVec.getLsbD_extractLsb', BitVec.getLsbD_append]
  simp [hi]

@[simp] theorem high20_zero_append (m : BitVec 4) : (0#20 ++ m).extractLsb' 4 20 = 0 := by
  apply BitVec.eq_of_getLsbD_eq
  intro i hi
  simp only [BitVec.getLsbD_extractLsb', BitVec.getLsbD_append]
  simp

theorem append_low8 {imm : BitVec 24} (h : imm.extractLsb' 8 16 = 0) : 0#16 ++ imm.extractLsb' 0 8 = imm := by
  apply BitVec.eq_of_getLsbD_eq
  intro i hi
  simp only [BitVec.getLsbD_append, BitVec.getLsbD_extractLsb']
  by_cases h1 : i < 8
  · simp [h1]
  · have := congrArg (fun b => b.getLsbD (i - 8)) h
    simp only [BitVec.getLsbD_extractLsb', show 8 + (i - 8) = i by omega] at this
    simp [show i - 8 < 16 by omega] at this
    simp [h1, this]

theorem append_low4 {imm : BitVec 24} (h : imm.extractLsb' 4 20 = 0) : 0#20 ++ imm.extractLsb' 0 4 = imm := by
  apply BitVec.eq_of_getLsbD_eq
  intro i hi
  simp only [BitVec.getLsbD_append, BitVec.getLsbD_extractLsb']
  by_cases h1 : i < 4
  · simp [h1]
  · have := congrArg (fun b => b.getLsbD (i - 4)) h
    simp only [BitVec.getLsbD_extractLsb', show 4 + (i - 4) = i by omega] at this
    simp [show i - 4 < 20 by omega] at this
    simp [h1, this]

/-! ## The formats (R82) -/

theorem decodeN_eq {w : Word} {i j : Instr} :
    decodeN w i = some j ↔ (rField w = 0 ∧ immField w = 0) ∧ i = j := by
  simp [decodeN]

theorem decodeRI_eq {w : Word} {f : BitVec 4 → CfgWord → Instr} {j : Instr} :
    decodeRI w f = some j ↔ cfgNumberOk (rField w) = true ∧ f (rField w) (immField w) = j := by
  simp [decodeRI]

theorem decodeR3_eq {w : Word} {f : BitVec 4 → Instr} {j : Instr} :
    decodeR3 w f = some j ↔ (cfgNumberOk (rField w) = true ∧ immField w = 0) ∧ f (rField w) = j := by
  simp [decodeR3]

theorem decodeR4_eq {w : Word} {f : BitVec 4 → Instr} {j : Instr} :
    decodeR4 w f = some j ↔ immField w = 0 ∧ f (rField w) = j := by
  simp [decodeR4]

theorem decodeI8_eq {w : Word} {f : Byte → Instr} {j : Instr} :
    decodeI8 w f = some j ↔
      (rField w = 0 ∧ (immField w).extractLsb' 8 16 = 0) ∧ f ((immField w).extractLsb' 0 8) = j := by
  simp [decodeI8]

theorem decodeI4_eq {w : Word} {f : BitVec 4 → Instr} {j : Instr} :
    decodeI4 w f = some j ↔
      (rField w = 0 ∧ (immField w).extractLsb' 4 20 = 0) ∧ f ((immField w).extractLsb' 0 4) = j := by
  simp [decodeI4]

/-- A word with a given `op`, `r` and `imm` is the word of these fields. -/
theorem fieldsWord_eq {w : Word} {op r : BitVec 4} {imm : BitVec 24} :
    fieldsWord op r imm = w ↔ opField w = op ∧ rField w = r ∧ immField w = imm := by
  constructor
  · rintro rfl; simp
  · rintro ⟨rfl, rfl, rfl⟩; exact fieldsWord_of_fields w

theorem opField_eq {w : Word} {n : Nat} (h : (opField w).toNat = n) : opField w = BitVec.ofNat 4 n := by
  rw [← h, BitVec.ofNat_toNat, BitVec.setWidth_eq]

/-! ## Masks (R84) -/

theorem opField_and (w m : Word) : opField (w &&& m) = opField w &&& opField m := by
  simp [opField, BitVec.extractLsb'_and]

theorem rField_and (w m : Word) : rField (w &&& m) = rField w &&& rField m := by
  simp [rField, BitVec.extractLsb'_and]

theorem immField_and (w m : Word) : immField (w &&& m) = immField w &&& immField m := by
  simp [immField, BitVec.extractLsb'_and]

/-- `(w AND mask) = match`, field by field. -/
theorem and_eq_iff_fields {w m v : Word} :
    w &&& m = v ↔ opField w &&& opField m = opField v ∧ rField w &&& rField m = rField v ∧
      immField w &&& immField m = immField v := by
  rw [← opField_and, ← rField_and, ← immField_and]
  exact ⟨fun h => by simp [h], fun ⟨h1, h2, h3⟩ => word_ext_fields h1 h2 h3⟩

theorem shift28_eq {w v : Word} : w >>> 28 = v >>> 28 ↔ opField w = opField v := by
  simp only [← BitVec.toNat_inj, opField, BitVec.toNat_ushiftRight, BitVec.extractLsb'_toNat]
  have h1 := w.isLt
  have h2 := v.isLt
  simp only [Nat.shiftRight_eq_div_pow]
  omega

theorem cfgNumberOk_iff_and (r : BitVec 4) : cfgNumberOk r = true ↔ r &&& 8 = 0 := by
  revert r
  decide

theorem high16_iff_and (imm : BitVec 24) : imm.extractLsb' 8 16 = 0 ↔ imm &&& 0xFFFF00 = 0 := by
  constructor
  · intro h
    rw [← append_low8 h]
    apply BitVec.eq_of_getLsbD_eq
    intro i hi
    rw [BitVec.getLsbD_and]
    by_cases h8 : i < 8
    · have : BitVec.getLsbD (0xFFFF00 : BitVec 24) i = false := by interval_cases i <;> rfl
      rw [this, Bool.and_false]; exact BitVec.getLsbD_zero.symm
    · rw [BitVec.getLsbD_append, if_neg h8, BitVec.getLsbD_zero, Bool.false_and]; exact BitVec.getLsbD_zero.symm
  · intro h
    have : (imm &&& 0xFFFF00).extractLsb' 8 16 = 0 := by rw [h]; rfl
    rw [BitVec.extractLsb'_and] at this
    rwa [show (0xFFFF00 : BitVec 24).extractLsb' 8 16 = BitVec.allOnes 16 by decide, BitVec.and_allOnes] at this

theorem high20_iff_and (imm : BitVec 24) : imm.extractLsb' 4 20 = 0 ↔ imm &&& 0xFFFFF0 = 0 := by
  constructor
  · intro h
    rw [← append_low4 h]
    apply BitVec.eq_of_getLsbD_eq
    intro i hi
    rw [BitVec.getLsbD_and]
    by_cases h4 : i < 4
    · have : BitVec.getLsbD (0xFFFFF0 : BitVec 24) i = false := by interval_cases i <;> rfl
      rw [this, Bool.and_false]; exact BitVec.getLsbD_zero.symm
    · rw [BitVec.getLsbD_append, if_neg h4, BitVec.getLsbD_zero, Bool.false_and]; exact BitVec.getLsbD_zero.symm
  · intro h
    have : (imm &&& 0xFFFFF0).extractLsb' 4 20 = 0 := by rw [h]; rfl
    rw [BitVec.extractLsb'_and] at this
    rwa [show (0xFFFFF0 : BitVec 24).extractLsb' 4 20 = BitVec.allOnes 20 by decide, BitVec.and_allOnes] at this

end Sys2Proof
end

