-- ==== Sys2Proof/Laws/PerInstr.lean ====
section
/-! SUPPORT. Statements made of every command as syntax, one lemma per constructor. -/

namespace Sys2Proof.Laws.EncodeMatchesRow

/-- The word of a well-formed command is a word of its own row of R84, under `mask` and `match`. -/
def Statement (i : Instr) : Prop :=
  i.wellFormed = true → ∃ row ∈ opcodeRows, row.mnemonic = i.mnemonic ∧ row.holds (encode i) = true

theorem nop : Statement .nop := by unfold Statement; decide

theorem setcfg (r : BitVec 4) (v : CfgWord) : Statement (.setcfg r v) := fun h =>
  ⟨⟨"SETCFG", 0xF8000000, 0x10000000⟩, by simp [opcodeRows], rfl, by
    simp only [OpcodeRow.holds, encode, beq_iff_eq, and_eq_iff_fields, opField_fieldsWord, rField_fieldsWord,
      immField_fieldsWord]
    exact ⟨by decide, (cfgNumberOk_iff_and r).1 h, by simp [immField]⟩⟩

theorem getcfg (r : BitVec 4) : Statement (.getcfg r) := by revert r; unfold Statement; decide

theorem txput (c : Byte) : Statement (.txput c) := by revert c; unfold Statement; decide

theorem txclr : Statement .txclr := by unfold Statement; decide

theorem transmit : Statement .transmit := by unfold Statement; decide

theorem txstop : Statement .txstop := by unfold Statement; decide

theorem listen : Statement .listen := by unfold Statement; decide

theorem rxstop : Statement .rxstop := by unfold Statement; decide

theorem rxget : Statement .rxget := by unfold Statement; decide

theorem getsr (n : BitVec 4) : Statement (.getsr n) := by revert n; unfold Statement; decide

theorem evclr (m : BitVec 4) : Statement (.evclr m) := by revert m; unfold Statement; decide

theorem irqen (m : BitVec 4) : Statement (.irqen m) := by revert m; unfold Statement; decide

end Sys2Proof.Laws.EncodeMatchesRow
end

