-- ==== Sys2Proof/Laws/Timers.lean ====
section
/-! SUPPORT. What the timers, the detection tick and the decoder leave alone, field by field, and what a
detection tick reads. -/

namespace Sys2Proof.Machine

/-- The fields the receive path never writes. -/
structure ReceiveFrame (s t : State) : Prop where
  config : t.config = s.config
  cfg : t.cfg = s.cfg
  mode : t.mode = s.mode
  mgain : t.mgain = s.mgain
  txcnt : t.txcnt = s.txcnt
  nsym : t.nsym = s.nsym
  t0 : t.t0 = s.t0
  txlen : t.txlen = s.txlen
  irqen : t.irqen = s.irqen
  clk : t.clk = s.clk
  clkhiLatch : t.clkhiLatch = s.clkhiLatch
  txbuf : t.txbuf = s.txbuf
  rspValid : t.rspValid = s.rspValid
  rsp : t.rsp = s.rsp
  out : t.out = s.out
  port : t.port = s.port
  future : t.future = s.future
  draws : t.draws = s.draws

theorem ReceiveFrame.trans {s t u : State} (h : ReceiveFrame s t) (k : ReceiveFrame t u) : ReceiveFrame s u := by
  constructor <;> simp only [h.config, h.cfg, h.mode, h.mgain, h.txcnt, h.nsym, h.t0, h.txlen, h.irqen, h.clk,
    h.clkhiLatch, h.txbuf, h.rspValid, h.rsp, h.out, h.port, h.future, h.draws, k.config, k.cfg, k.mode, k.mgain,
    k.txcnt, k.nsym, k.t0, k.txlen, k.irqen, k.clk, k.clkhiLatch, k.txbuf, k.rspValid, k.rsp, k.out, k.port,
    k.future, k.draws]

theorem accumulate_frame (b : Bool) (s : State) : ReceiveFrame s (accumulate b s) := by
  unfold accumulate
  dsimp only
  split <;> constructor <;> simp

theorem classify_frame (k : Nat) (s : State) : ReceiveFrame s (classify k s) := by
  unfold classify
  split
  · constructor <;> rfl
  · exact accumulate_frame _ _

theorem detectionTick_frame (s : State) : ReceiveFrame s (detectionTick s) := by
  unfold detectionTick
  split
  · constructor <;> rfl
  · unfold detect
    dsimp only
    split
    · exact ReceiveFrame.trans (by constructor <;> rfl) (classify_frame _ _)
    · constructor <;> rfl

theorem pollTimer_frame (s : State) : ReceiveFrame s (pollTimer s) := by
  unfold pollTimer
  split
  · exact ReceiveFrame.trans (by constructor <;> rfl) (detectionTick_frame _)
  · constructor <;> rfl

@[simp] theorem accumulate_tickcnt (b : Bool) (s : State) : (accumulate b s).tickcnt = s.tickcnt := by
  unfold accumulate; dsimp only; split <;> simp

@[simp] theorem accumulate_reading (b : Bool) (s : State) : (accumulate b s).reading = s.reading := by
  unfold accumulate; dsimp only; split <;> simp

@[simp] theorem accumulate_frameCells (b : Bool) (s : State) : (accumulate b s).frame = s.frame := by
  unfold accumulate; dsimp only; split <;> simp

@[simp] theorem classify_tickcnt (k : Nat) (s : State) : (classify k s).tickcnt = s.tickcnt := by
  unfold classify; split <;> simp

@[simp] theorem classify_reading (k : Nat) (s : State) : (classify k s).reading = s.reading := by
  unfold classify; split <;> simp

@[simp] theorem classify_frameCells (k : Nat) (s : State) : (classify k s).frame = s.frame := by
  unfold classify; split <;> simp

/-- What the classifier writes: the accumulator, the queue, the cause and the events, and nothing else. -/
theorem classify_writes (k : Nat) (s : State) :
    classify k s = { s with
      rxshift := (classify k s).rxshift
      rxcnt := (classify k s).rxcnt
      rxfifo := (classify k s).rxfifo
      err := (classify k s).err
      events := (classify k s).events } := by
  have h := classify_frame k s
  rw [State.mk.injEq]
  exact ⟨h.config, h.cfg, h.mode, h.mgain, h.txcnt, h.nsym, h.t0, h.txlen, classify_tickcnt k s, rfl, rfl,
    classify_reading k s, rfl, h.irqen, rfl, h.clk, h.clkhiLatch, h.txbuf, classify_frameCells k s, rfl,
    h.rspValid, h.rsp, h.out, h.port, h.future, h.draws⟩

/-- `s` with what a tick step writes before it classifies: the output, the timer, the frame, the reading. -/
abbrev withScan (o : Int) (n : BitVec 24) (f : Memory Nat) (r : Reading) (s : State) : State :=
  { s with out := o, tickcnt := n, frame := f, reading := r }

variable (o : Int) (n : BitVec 24) (f : Memory Nat) (r : Reading)

theorem push_withScan (c : Byte) (s : State) : push c (withScan o n f r s) = withScan o n f r (push c s) := by
  unfold push
  simp only [apply_ite (withScan o n f r)]
  rfl

theorem accumulate_withScan (b : Bool) (s : State) :
    accumulate b (withScan o n f r s) = withScan o n f r (accumulate b s) := by
  simp only [accumulate]
  split
  · rfl
  · exact push_withScan o n f r _ (setAccumulator _ _ s)

/-- The classifier reads none of what the tick step wrote before it. -/
theorem classify_withScan (k : Nat) (s : State) :
    classify k (withScan o n f r s) = withScan o n f r (classify k s) := by
  unfold classify
  rw [show classifyBin (withScan o n f r s) k = classifyBin s k from rfl]
  split
  · rfl
  · exact accumulate_withScan ..

/-- What the transmit timer never writes. -/
theorem transmitTimer_cases (s : State) :
    (s.txcnt + 1 ≠ s.nsym * s.cfg.tsym.toNat + s.config.guardTicks ∧
      transmitTimer s = countTx s) ∨
    (s.txcnt + 1 = s.nsym * s.cfg.tsym.toNat + s.config.guardTicks ∧
      transmitTimer s = { s with mode := .idle, mgain := 0, txcnt := 0, nsym := 0, events := s.events ||| 0b0100 }) := by
  unfold transmitTimer
  split
  · next h => exact .inr ⟨h, rfl⟩
  · next h => exact .inl ⟨h, rfl⟩

/-- The fields no tick step writes but `CLK` and `OUT` (which `timers` does not write either). -/
structure TickFrame (s t : State) : Prop where
  config : t.config = s.config
  cfg : t.cfg = s.cfg
  t0 : t.t0 = s.t0
  txlen : t.txlen = s.txlen
  irqen : t.irqen = s.irqen
  clk : t.clk = s.clk
  clkhiLatch : t.clkhiLatch = s.clkhiLatch
  txbuf : t.txbuf = s.txbuf
  rspValid : t.rspValid = s.rspValid
  rsp : t.rsp = s.rsp
  out : t.out = s.out
  port : t.port = s.port
  future : t.future = s.future
  draws : t.draws = s.draws

theorem timers_frame (s : State) : TickFrame s (timers s) := by
  unfold timers
  split
  · constructor <;> rfl
  · rcases transmitTimer_cases s with ⟨_, h⟩ | ⟨_, h⟩ <;> rw [h] <;> constructor <;> rfl
  · have h := pollTimer_frame s
    exact ⟨h.config, h.cfg, h.t0, h.txlen, h.irqen, h.clk, h.clkhiLatch, h.txbuf, h.rspValid, h.rsp, h.out, h.port,
      h.future, h.draws⟩

/-! ## The output sample -/

/-- Everything `ToneOut` can do in a transmission: silence in the guard interval; else the sample of the
symbol in flight, or the model's own stop where nothing has written its cell (R130; log 6). -/
theorem toneOutTransmitting_cases (s : State) :
    (s.nsym * s.cfg.tsym.toNat ≤ s.txcnt ∧ toneOutTransmitting s = .ok 0) ∨
    (s.txcnt < s.nsym * s.cfg.tsym.toNat ∧
      ((memRead s.txbuf (s.txcnt / s.cfg.tsym.toNat / 8) = none ∧
          toneOutTransmitting s = .error (.txbufUnwritten (s.txcnt / s.cfg.tsym.toNat / 8))) ∨
        ∃ b, textBit s (s.txcnt / s.cfg.tsym.toNat) = some b ∧
          toneOutTransmitting s = .ok (toneSample s b (s.txcnt % s.cfg.tsym.toNat)))) := by
  unfold toneOutTransmitting
  split
  · next h => exact .inl ⟨h, rfl⟩
  · next h =>
    refine .inr ⟨by omega, ?_⟩
    cases hb : textBit s (s.txcnt / s.cfg.tsym.toNat) with
    | none => exact .inl ⟨Option.map_eq_none_iff.1 hb, rfl⟩
    | some b => exact .inr ⟨b, rfl, rfl⟩

theorem tick_of_error {s : State} {f : Fault} (h : toneOut s = .error f) : tick s = .fault f := by
  simp [tick, h]

/-! ## The frame and the scan -/

@[simp] theorem frameSamples_length (c : Config) (d n k : Nat) (xs : List Nat) :
    (frameSamples c d n k xs).length = n := by
  induction n generalizing k xs with
  | zero => rfl
  | succ n ih => cases xs <;> simp [frameSamples, ih]

theorem portFrame_length (s : State) : (portFrame s).length = s.cfg.nbins.toNat := frameSamples_length ..

theorem frameSamples_le (c : Config) (d n k : Nat) (xs : List Nat) :
    ∀ x ∈ frameSamples c d n k xs, x ≤ magmax c := by
  have hp : 0 < 2 ^ c.magw := Nat.two_pow_pos _
  induction n generalizing k xs with
  | zero => simp [frameSamples]
  | succ n ih =>
    intro x hx
    cases xs with
    | nil =>
      rcases List.mem_cons.1 hx with rfl | hx
      · exact Nat.le_sub_one_of_lt (Nat.mod_lt _ hp)
      · exact ih _ _ x hx
    | cons y ys =>
      rcases List.mem_cons.1 hx with rfl | hx
      · exact Nat.le_sub_one_of_lt (Nat.mod_lt _ hp)
      · exact ih _ _ x hx

/-- A sample the port gives within `MAGW` bits is the frame's (R155). -/
theorem frameSamples_of_listed (c : Config) (d n k j x : Nat) (xs : List Nat) (hj : j < n) (h : xs[j]? = some x)
    (hx : x ≤ magmax c) : (frameSamples c d n k xs)[j]? = some x := by
  induction n generalizing k j xs with
  | zero => omega
  | succ n ih =>
    cases xs with
    | nil => simp at h
    | cons y ys =>
      cases j with
      | zero =>
        have hp : 0 < 2 ^ c.magw := Nat.two_pow_pos _
        simp only [List.getElem?_cons_zero, Option.some.injEq] at h
        subst h
        simp [frameSamples, Nat.mod_eq_of_lt (by unfold magmax at hx; omega : y < 2 ^ c.magw)]
      | succ j => simpa [frameSamples] using ih (k + 1) j ys (by omega) (by simpa using h)

/-- The scan of consecutive cells: either the maximum so far stays, or it moves to the first bin that holds
the new maximum (R158). -/
theorem scanFrom_spec (vs : List Nat) (m kmax k : Nat) :
    (scanFrom m kmax (cellsFrom k vs) = (m, kmax) ∧ ∀ x ∈ vs, x ≤ m) ∨
    ∃ j x, vs[j]? = some x ∧ scanFrom m kmax (cellsFrom k vs) = (x, k + j) ∧ m < x ∧
      (∀ y ∈ vs, y ≤ x) ∧ ∀ i < j, ∀ y, vs[i]? = some y → y < x := by
  induction vs generalizing m kmax k with
  | nil => exact .inl ⟨rfl, by simp⟩
  | cons v vs ih =>
    by_cases hv : m < v
    · have hs : scanFrom m kmax (cellsFrom k (v :: vs)) = scanFrom v k (cellsFrom (k + 1) vs) := by
        simp [cellsFrom, scanFrom, hv]
      rcases ih v k (k + 1) with ⟨h1, h2⟩ | ⟨j, x, hj, h1, h2, h3, h4⟩
      · exact .inr ⟨0, v, rfl, by rw [hs, h1]; rfl, hv, by simpa using h2, by simp⟩
      · refine .inr ⟨j + 1, x, hj, by rw [hs, h1]; congr 1; omega, by omega, ?_, ?_⟩
        · simpa using ⟨by omega, h3⟩
        · intro i hi y hy
          cases i with
          | zero => simp at hy; omega
          | succ i => exact h4 i (by omega) y (by simpa using hy)
    · have hs : scanFrom m kmax (cellsFrom k (v :: vs)) = scanFrom m kmax (cellsFrom (k + 1) vs) := by
        simp [cellsFrom, scanFrom, hv]
      rcases ih m kmax (k + 1) with ⟨h1, h2⟩ | ⟨j, x, hj, h1, h2, h3, h4⟩
      · exact .inl ⟨by rw [hs, h1], by simpa using ⟨by omega, h2⟩⟩
      · refine .inr ⟨j + 1, x, hj, by rw [hs, h1]; congr 1; omega, h2, ?_, ?_⟩
        · simpa using ⟨by omega, h3⟩
        · intro i hi y hy
          cases i with
          | zero => simp at hy; omega
          | succ i => exact h4 i (by omega) y (by simpa using hy)

/-- The scan of a non-empty frame: its maximum, at the first bin that holds it (R158). -/
theorem scanCells_spec {vs : List Nat} (h : vs ≠ []) :
    vs[(scanCells (cellsFrom 0 vs)).2]? = some (scanCells (cellsFrom 0 vs)).1 ∧
    (∀ y ∈ vs, y ≤ (scanCells (cellsFrom 0 vs)).1) ∧
    ∀ i < (scanCells (cellsFrom 0 vs)).2, ∀ y, vs[i]? = some y → y < (scanCells (cellsFrom 0 vs)).1 := by
  obtain ⟨v, vs, rfl⟩ := List.exists_cons_of_ne_nil h
  have hs : scanCells (cellsFrom 0 (v :: vs)) = scanFrom v 0 (cellsFrom 1 vs) := rfl
  rw [hs]
  rcases scanFrom_spec vs v 0 1 with ⟨h1, h2⟩ | ⟨j, x, hj, h1, h2, h3, h4⟩
  · rw [h1]; exact ⟨rfl, by simpa using h2, by simp⟩
  · rw [h1, Nat.add_comm 1 j]
    refine ⟨hj, by simpa using ⟨by omega, h3⟩, fun i hi y hy => ?_⟩
    cases i with
    | zero => simp at hy; simp only; omega
    | succ i => exact h4 i (by simp at hi; omega) y (by simpa using hy)

theorem peakScan_captureFrame (s : State) :
    peakScan (captureFrame s) = scanCells (cellsFrom 0 (portFrame s)) :=
  congrArg scanCells (memCapture_filter_lt s.frame (portFrame_length s))

/-! ## Reading a detection tick -/

theorem detect_reading (s : State) : (detect s).reading = readingOf s (peakScan s) := by
  unfold detect
  dsimp only
  split <;> simp

theorem detectionTick_ok {s : State} (h : s.port.inOk = true) : detectionTick s = detect (captureFrame s) := by
  simp [detectionTick, h]

/-- Everything a detection does after the capture: the reading, and for a valid one `FREQ` and the
classification of the winning bin (R154, R162). -/
theorem detect_cases (s : State) :
    ((readingOf s (peakScan s)).valid = false ∧ detect s = setReading (readingOf s (peakScan s)) s) ∨
    ((readingOf s (peakScan s)).valid = true ∧
      detect s = classify (readingOf s (peakScan s)).bin
        (setEvents evFreq (setReading (readingOf s (peakScan s)) s))) := by
  unfold detect
  dsimp only
  split
  · next h => exact .inr ⟨h, rfl⟩
  · next h => exact .inl ⟨by simpa using h, rfl⟩

@[simp] theorem detect_frameCells (s : State) : (detect s).frame = s.frame := by
  unfold detect
  dsimp only
  split <;> simp

@[simp] theorem detect_tickcnt (s : State) : (detect s).tickcnt = s.tickcnt := by
  unfold detect
  dsimp only
  split <;> simp

@[simp] theorem detectionTick_tickcnt (s : State) : (detectionTick s).tickcnt = s.tickcnt := by
  unfold detectionTick
  split <;> simp

end Sys2Proof.Machine
end

