-- ==== Sys2Proof/Laws/Ports.lean ====
section
/-! SUPPORT. The tick step reads neither the response port nor, outside a detection tick, the inputs:
changing them before it or after it is the same. -/

namespace Sys2Proof.Machine

/-- `s` with the response port and the input ports replaced. -/
abbrev withPorts (b : Bool) (r : Response) (p : InputPorts) (s : State) : State :=
  { s with rspValid := b, rsp := r, port := p }

variable (b : Bool) (r : Response) (p : InputPorts)

theorem push_withPorts (c : Byte) (s : State) : push c (withPorts b r p s) = withPorts b r p (push c s) := by
  unfold push
  simp only [apply_ite (withPorts b r p)]
  rfl

theorem accumulate_withPorts (x : Bool) (s : State) :
    accumulate x (withPorts b r p s) = withPorts b r p (accumulate x s) := by
  simp only [accumulate]
  split
  · rfl
  · exact push_withPorts b r p _ (setAccumulator _ _ s)

theorem classify_withPorts (k : Nat) (s : State) :
    classify k (withPorts b r p s) = withPorts b r p (classify k s) := by
  unfold classify
  rw [show classifyBin (withPorts b r p s) k = classifyBin s k from rfl]
  split
  · rfl
  · exact accumulate_withPorts ..

theorem detect_withPorts (s : State) : detect (withPorts b r p s) = withPorts b r p (detect s) := by
  unfold detect
  dsimp only
  rw [show readingOf (withPorts b r p s) (peakScan (withPorts b r p s)) = readingOf s (peakScan s) from rfl]
  split
  · exact classify_withPorts b r p _ (setEvents _ (setReading _ s))
  · rfl

variable {b r p}

theorem detectionTick_withPorts {s : State} (h1 : p.inOk = s.port.inOk) (h2 : p.frame = s.port.frame) :
    detectionTick (withPorts b r p s) = withPorts b r p (detectionTick s) := by
  unfold detectionTick
  simp only [h1]
  split
  · rfl
  · have : captureFrame (withPorts b r p s) = withPorts b r p (captureFrame s) := by
      simp only [captureFrame, portFrame, h2]
    rw [this]
    exact detect_withPorts ..

theorem timers_withPorts {s : State}
    (h : s.mode = .listening → detectionDue s = true → p.inOk = s.port.inOk ∧ p.frame = s.port.frame) :
    timers (withPorts b r p s) = withPorts b r p (timers s) := by
  cases hm : s.mode
  · simp [timers, hm]
  · simp only [timers, hm, transmitTimer]
    split <;> rfl
  · simp only [timers, hm, pollTimer]
    rw [show detectionDue (withPorts b r p s) = detectionDue s from rfl]
    split
    · next hd => exact detectionTick_withPorts (s := setTickcnt 0 s) (h hm hd).1 (h hm hd).2
    · rfl

/-- A tick step after the ports are replaced is the tick step, then the ports replaced: the frame and the
pin `in_ok` matter only where a detection tick is due. -/
theorem tick_withPorts {s : State}
    (h : s.mode = .listening → detectionDue s = true → p.inOk = s.port.inOk ∧ p.frame = s.port.frame) :
    tick (withPorts b r p s) = andThen (tick s) (fun t => .next (withPorts b r p t)) := by
  unfold tick
  rw [show toneOut (withPorts b r p s) = toneOut s from rfl]
  split
  · rfl
  · next o _ =>
    have : timers (driveOut o (withPorts b r p s)) = withPorts b r p (timers (driveOut o s)) :=
      timers_withPorts (s := driveOut o s) h
    simp only [this]
    rfl

/-- The end of the period brings the next inputs, whatever the old ones. -/
theorem nextPeriod_withPorts (s : State) :
    nextPeriod (withPorts b r p s) = withPorts b r (nextPeriod s).port (nextPeriod s) := by
  unfold nextPeriod
  cases h : s.future <;> simp

end Sys2Proof.Machine
end

