-- ==== Sys2Proof/Tests/Slice0.lean ====
section
/-! SUPPORT. The model's own tests. Every expected result is a vector or an example of the spec (named in
the comment); the last part shows, for each statement with hypotheses, a concrete case that meets them. -/

namespace Sys2Proof.Tests

open Sys2Proof.Machine

-- One theorem after the other: each kernel evaluation waits for the declarations before it, and many waiting
-- at once take a thread each.
set_option Elab.async false

/-- The outcome is a next state that passes the check. -/
def check (o : Result) (p : State → Bool) : Bool :=
  match o with
  | .next t => p t
  | .fault _ => false
  | .refused _ => false

/-- The outcome is a next state with this response. -/
def responds (o : Result) (status : BitVec 8) (data : Word) : Bool := check o (fun t => t.rsp == ⟨status, data⟩)

theorem exists_of_check {o : Result} {p : State → Bool} (h : check o p = true) : ∃ t, o = .next t ∧ p t = true := by
  cases o with
  | next t => exact ⟨t, rfl, h⟩
  | fault r => cases h
  | refused r => cases h

/-! ## Small states -/

/-- "Hi" in `TXBUF`, as after two `TXPUT`s. -/
def withText : State := { State.reset with txbuf := [(0, 0x48), (1, 0x69)], txlen := 2, clk := 2 }

/-- The "Hi" transmission, `n` ticks after `T0` = 2. -/
def sending (n : Nat) : State :=
  { withText with mode := .transmitting, nsym := 16, t0 := 2, txcnt := n, mgain := 9830, clk := 2 + n }

/-- A listen session with the poll timer at `n`, `NBINS` = 4, and a frame at the port. -/
def hearing (n : BitVec 24) (frame : List Nat) : State :=
  { State.reset with
    mode := .listening
    tickcnt := n
    cfg := { State.reset.cfg with nbins := 4 }
    port := { State.reset.port with frame := frame } }

/-- `s` with the word at the command port. -/
def cmd (w : Word) (s : State) : State := withCommand w s

/-- `s` with the word at the command port, and two listed later periods without a command, in which the pins
fall and a frame comes. -/
def listed (w : Word) (s : State) : State :=
  { withCommand w s with future := [⟨false, none, false, false, [9]⟩, ⟨false, none, true, false, []⟩] }

/-! ## Well-formed terms: register numbers above 7 are refused (R90) -/

theorem test_wellformed_setcfg_refused : (Instr.setcfg 8 0).wellFormed = false := by decide
theorem test_wellformed_getcfg_refused : (Instr.getcfg 15).wellFormed = false := by decide
theorem test_wellformed_accepts : (Instr.setcfg 7 0).wellFormed = true ∧ (Instr.getcfg 0).wellFormed = true ∧
    (Instr.getsr 15).wellFormed = true := by decide

/-! ## Decoding: one word per constructor, written bit by bit from R82 and R84 (V20 to V38) -/

theorem test_decode_nop : decode 0b0000_0000_000000000000000000000000 = some .nop := by decide
theorem test_decode_setcfg : decode 0b0001_0101_111111111111111111100010 = some (.setcfg 5 0xFFFFE2) := by decide
theorem test_decode_getcfg : decode 0b0010_0111_000000000000000000000000 = some (.getcfg 7) := by decide
theorem test_decode_txput : decode 0b0011_0000_000000000000000001101001 = some (.txput 0x69) := by decide
theorem test_decode_txclr : decode 0b0100_0000_000000000000000000000000 = some .txclr := by decide
theorem test_decode_transmit : decode 0b0101_0000_000000000000000000000000 = some .transmit := by decide
theorem test_decode_txstop : decode 0b0110_0000_000000000000000000000000 = some .txstop := by decide
theorem test_decode_listen : decode 0b0111_0000_000000000000000000000000 = some .listen := by decide
theorem test_decode_rxstop : decode 0b1000_0000_000000000000000000000000 = some .rxstop := by decide
theorem test_decode_rxget : decode 0b1001_0000_000000000000000000000000 = some .rxget := by decide
theorem test_decode_getsr : decode 0b1010_1111_000000000000000000000000 = some (.getsr 15) := by decide
theorem test_decode_evclr : decode 0b1011_0000_000000000000000000000101 = some (.evclr 5) := by decide
theorem test_decode_irqen : decode 0b1100_0000_000000000000000000000011 = some (.irqen 3) := by decide

/-- V14, V35 to V38: words that are no command. -/
theorem test_decode_illegal :
    ([0xD0000000, 0xE0000000, 0xF0000000, 0xFFFFFFFF, 0x00000001, 0x01000000, 0x50000001, 0x41000000, 0x90000100,
      0x18000000, 0x2F000000, 0x20000001, 0xA0000001, 0xB0000010, 0xB1000001, 0xC0000010, 0x30000148] : List Word).all
      (fun w => decode w == none) = true := by decide

theorem test_encode_words : encode (.setcfg 0 18000) = 0x10004650 ∧ encode (.txput 0x48) = 0x30000048 ∧
    encode (.getsr 15) = 0xAF000000 ∧ encode (.evclr 15) = 0xB000000F := by decide

theorem test_decodeTableWord : decodeTableWord 32 0xC0000003 = some (.irqen 3) := by decide

/-! ## Assembler lines of R92, R93 and the vectors -/

theorem test_assemble_setcfg : assemble "SETCFG DETTH, -30".toList = some 0x15FFFFE2 ∧
    assemble "SETCFG 2, 0x60".toList = some 0x12000060 := by decide +kernel
theorem test_assemble_operands : assemble "TXPUT 'i'".toList = some 0x30000069 ∧
    assemble "GETSR TICKCNT".toList = some 0xAF000000 ∧ assemble "IRQEN MSG|ERR".toList = some 0xC0000003 ∧
    assemble "GETCFG NBINS".toList = some 0x27000000 ∧ assemble "NOP ; nothing".toList = some 0 := by decide +kernel
theorem test_assemble_refuses : assemble "SETCFG F0, -1".toList = none ∧ assemble "GETCFG 8".toList = none ∧
    assemble "TXPUT 256".toList = none ∧ assemble "NOP 1".toList = none := by decide +kernel
theorem test_sendText : (sendText [0x48, 0x69]).map encode = [0x40000000, 0x30000048, 0x30000069, 0x50000000] := by
  decide

/-! ## The commands, one step each -/

theorem test_nop : responds (step (cmd 0 State.reset)) 0 0 = true := by decide +kernel
/-- V102. -/
theorem test_setcfg_detth : responds (step (cmd 0x15FFFF01 State.reset)) 0 0xFFFF01 = true ∧
    responds (step (cmd 0x15FFFF00 State.reset)) 0x11 0 = true ∧
    responds (step (cmd 0x15000001 State.reset)) 0x11 0 = true := by decide +kernel
/-- V107: `Locked` comes before `BadValue`. -/
theorem test_setcfg_locked : responds (step (cmd 0x12000000 (hearing 0 []))) 0x12 0 = true := by decide +kernel
/-- V100. -/
theorem test_getcfg : responds (step (cmd 0x25000000 State.reset)) 0 0x00FFFFE2 = true ∧
    responds (step (cmd 0x23000000 State.reset)) 0 9830 = true := by decide +kernel
/-- R104. -/
theorem test_txput : check (step (cmd 0x30000048 State.reset))
    (fun t => t.rsp == ⟨0, 1⟩ && t.txbuf == [(0, 0x48)] && t.txlen == 1) = true := by decide +kernel
/-- V12: the 257th character. -/
theorem test_txput_full : responds (step (cmd 0x30000048 { State.reset with txlen := 256 })) 0x13 0 = true := by
  decide +kernel
/-- R105. -/
theorem test_txclr : check (step (cmd 0x40000000 withText))
    (fun t => t.rsp == ⟨0, 0⟩ && t.txlen == 0 && t.txbuf == withText.txbuf) = true := by decide +kernel
/-- R122, example. -/
theorem test_transmit : check (step (cmd 0x50000000 withText))
    (fun t => t.rsp == ⟨0, 16⟩ && t.nsym == 16 && t.t0 == 2 && t.txcnt == 1 && t.mgain == 9830
      && t.mode == .transmitting) = true := by decide +kernel
/-- V5, V66. -/
theorem test_transmit_fails :
    responds (step (cmd 0x50000000 { withText with txbuf := [(0, 0x48), (1, 0x80)] })) 0x04 0 = true ∧
    responds (step (cmd 0x50000000 { hearing 0 [] with port := { State.reset.port with sinkRdy := false } })) 0x02 0
      = true := by decide +kernel
/-- R134, example. -/
theorem test_txstop : check (step (cmd 0x60000000 (sending 100)))
    (fun t => t.rsp == ⟨0, 1⟩ && t.mode == .idle && t.mgain == 0 && t.out == 0 && t.events == 0) = true := by
  decide +kernel
/-- R151. -/
theorem test_listen : check (step (cmd 0x70000000 State.reset))
    (fun t => t.rsp == ⟨0, 0⟩ && t.mode == .listening && t.tickcnt == 1) = true := by decide +kernel
/-- R152, example. -/
theorem test_rxstop : check (step (cmd 0x80000000 { hearing 5 [] with rxcnt := 3, rxshift := 2 }))
    (fun t => t.rsp == ⟨0, 1⟩ && t.mode == .idle && t.rxcnt == 0 && t.tickcnt == 0) = true := by decide +kernel
/-- R106, V15. -/
theorem test_rxget : check (step (cmd 0x90000000 { State.reset with rxfifo := [0x48, 0x69] }))
    (fun t => t.rsp == ⟨0, 0x48⟩ && t.rxfifo == [0x69]) = true ∧
    responds (step (cmd 0x90000000 State.reset)) 0x14 0 = true := by decide +kernel
/-- V111. -/
theorem test_getsr_clklo : check (step (cmd 0xAB000000 { State.reset with clk := 0x0001FFFFFFFF }))
    (fun t => t.rsp == ⟨0, 0xFFFFFFFF⟩ && t.clkhiLatch == 1 && t.clk == 0x000200000000) = true := by decide +kernel
/-- V73, V11. -/
theorem test_getsr_views :
    responds (step (cmd 0xA8000000 { State.reset with reading := ⟨true, 811, 200⟩ })) 0 0x80C8032B = true ∧
    responds (step (cmd 0xA9000000 { State.reset with rxshift := 2, rxcnt := 3 })) 0 0x302 = true := by decide +kernel
/-- V108. -/
theorem test_evclr : check (step (cmd 0xB0000001 { State.reset with events := 0b0101 }))
    (fun t => t.rsp == ⟨0, 5⟩ && t.events == 0b0100) = true := by decide +kernel
/-- V110. -/
theorem test_irqen : check (step (cmd 0xC0000004 { State.reset with events := 0b0100 }))
    (fun t => t.rsp == ⟨0, 4⟩ && irq t) = true := by decide +kernel
/-- V35. -/
theorem test_illegal_word : check (step (cmd 0xD0000000 (sending 5)))
    (fun t => t.rsp == ⟨0x10, 0⟩ && t.mode == .transmitting) = true := by decide +kernel
/-- R86 with R71: the poll timer counts in a period with an illegal word. -/
theorem test_illegal_word_ticks : check (step (cmd 0x18000000 (hearing 5 [])))
    (fun t => t.rsp == ⟨0x10, 0⟩ && t.rspValid && t.tickcnt == 6 && t.clk == 1) = true := by decide +kernel
/-- V114. -/
theorem test_reset_period :
    check (step { sending 5 with port := { State.reset.port with rst := true, cmd := some 0xA0000000 } })
      (fun t => t.mode == .idle && t.events == 0 && t.txlen == 0 && t.clk == 0 && !t.rspValid) = true := by
  decide +kernel

/-! ## The tick step -/

/-- V56: symbol 0 of "Hi" is bit 0 (18000 Hz); the samples at k = 1, 2, 3 and 46. -/
theorem test_samples_bit0 : toneOut (sending 1) = .ok 14 ∧ toneOut (sending 2) = .ok (-40) ∧
    toneOut (sending 3) = .ok 43 ∧ toneOut (sending 46) = .ok 942 := by decide +kernel
/-- V57: symbol 1 is bit 1 (19000 Hz); the samples at k = 1, 2, 3, 4 and 95. -/
theorem test_samples_bit1 : toneOut (sending 97) = .ok 12 ∧ toneOut (sending 98) = .ok (-39) ∧
    toneOut (sending 99) = .ok 56 ∧ toneOut (sending 100) = .ok (-40) ∧ toneOut (sending 191) = .ok (-12) := by
  decide +kernel
/-- R133: the last tick of the guard interval. -/
theorem test_completion : check (tick (sending 25535))
    (fun t => t.mode == .idle && t.events == 0b0100 && t.t0 == 2 && t.txlen == 2 && t.out == 0) = true := by
  decide +kernel
/-- V45 and R160: the first of two equal maxima, above the threshold; bin 0 is in no window. -/
theorem test_detection : check (tick (hearing 4799 [3, 200, 7, 200]))
    (fun t => t.reading == ⟨true, 1, 200⟩ && t.events == 0b1000 && t.frame == [(0, 3), (1, 200), (2, 7), (3, 200)]
      && t.tickcnt == 0 && t.rxcnt == 0) = true := by decide +kernel
/-- V87: the eighth bit of 'H'. With four bins, bin 3 is 18000 Hz (R161), the tone of bit 0: the tick
completes the character after the bits 0100100. -/
theorem test_detection_classifies :
    check (tick { hearing 4799 [0, 0, 0, 200] with rxcnt := 7, rxshift := 0b0100100 })
      (fun t => t.reading == ⟨true, 3, 200⟩ && t.rxfifo == [0x48] && t.events == 0b1001 && t.rxcnt == 0
        && t.rxshift == 0 && t.err == 0 && t.out == 0 && t.clk == 1) = true := by decide +kernel
/-- R170, R174: with `F0` = 17000 the same bin is the tone of bit 1, shifted in at the right. -/
theorem test_detection_classifies_one :
    check (tick { hearing 4799 [0, 0, 0, 200] with
      cfg := { State.reset.cfg with nbins := 4, f0 := 17000 }, rxcnt := 3, rxshift := 0b010 })
      (fun t => t.rxshift == 0b0101 && t.rxcnt == 4 && t.rxfifo == [] && t.events == 0b1000) = true := by
  decide +kernel
/-- V88: the 17th character is lost. -/
theorem test_detection_overflows :
    check (tick { hearing 4799 [0, 0, 0, 200] with
      rxcnt := 7, rxshift := 0b0100100, events := 0b1001, rxfifo := List.replicate 16 1 })
      (fun t => t.rxfifo == List.replicate 16 1 && t.err == 0x15 && t.events == 0xB && t.rxcnt == 0
        && t.rxshift == 0) = true := by decide +kernel
/-- V41: a maximum of 8 is below -30. -/
theorem test_detection_below : check (tick (hearing 4799 [8, 8, 0, 0]))
    (fun t => t.reading == ⟨false, 0, 8⟩ && t.events == 0) = true := by decide +kernel
/-- V70. -/
theorem test_detection_without_input :
    check (tick { hearing 4799 [] with port := { State.reset.port with inOk := false }, rxcnt := 2 })
      (fun t => t.reading == ⟨false, 0, 0⟩ && t.err == 0x03 && t.events == 0b0010 && t.mode == .listening
        && t.rxcnt == 2) = true := by decide +kernel
/-- V81: edges of the windows at the reset values. -/
theorem test_window_edges : classifyBin State.reset 757 = none ∧ classifyBin State.reset 758 = some false ∧
    classifyBin State.reset 778 = some false ∧ classifyBin State.reset 779 = none ∧
    classifyBin State.reset 799 = none ∧ classifyBin State.reset 800 = some true ∧
    classifyBin State.reset 821 = some true ∧ classifyBin State.reset 822 = none := by decide +kernel
/-- V87: the bits of 'H'. -/
theorem test_accumulate :
    (accumulateAll [false, true, false, false, true, false, false, false] State.reset).rxfifo = [0x48] ∧
    (accumulateAll [false, true, false] State.reset).rxshift = 2 := by decide +kernel
/-- S1, V7. -/
theorem test_codec : decodeBits [false, true, false, false, true, false, false, false, false] = [0x48] ∧
    encodeText [0x41] = .ok [false, true, false, false, false, false, false, true] ∧
    (encodeText [0x80]).toOption = none := by decide
/-- R128. -/
theorem test_tuning_words : ftw Config.reference 18000 = 0x60000000 ∧ ftw Config.reference 19000 = 0x65555555 := by
  decide +kernel
/-- R129. -/
theorem test_wave : wave Config.reference (2 ^ 30) = 32767 ∧ wave Config.reference (2 ^ 29) = 23170 ∧
    wave Config.reference (5 * 2 ^ 29) = -23170 ∧ wave Config.reference (2 ^ 31) = 0 := by decide +kernel
/-- P5's shape: after an accepted `SETCFG` the frame script goes on; a script line runs one period. -/
theorem test_script_line :
    (runLine (.command 0x12000008) ⟨State.reset, true, true, []⟩).map (fun c => (c.machine.cfg.tsym, c.machine.clk))
      = some (8, 1) := by decide +kernel

/-! ## Cases that meet the hypotheses of the statements, by the statement's name -/

theorem reference_legal : Config.reference.Legal := by constructor <;> decide

/-- `Inv` of a concrete state, from its fields. -/
theorem inv_of_checks {s : State} (hc : s.config = Config.reference)
    (h : (TransmitIdle s ∧ TransmitConsistent s ∧ ListenIdle s ∧ PollBelow s ∧ AccumulatorBits s ∧ TextWritten s ∧
      QueueBounded s ∧ WidthsHold s ∧ MemoriesCanonical s)) (hl : ConfigLegal s) : Inv s where
  params := hc ▸ reference_legal
  transmitIdle := h.1
  transmit := h.2.1
  listenIdle := h.2.2.1
  poll := h.2.2.2.1
  accumulator := h.2.2.2.2.1
  text := h.2.2.2.2.2.1
  queue := h.2.2.2.2.2.2.1
  config := hl
  widths := h.2.2.2.2.2.2.2.1
  memories := h.2.2.2.2.2.2.2.2

theorem inv_sending : Inv (sending 5) :=
  inv_of_checks rfl (by decide +kernel) (fun r => by cases r <;> decide +kernel)

theorem inv_hearing : Inv (hearing 4799 [3, 200, 7, 200]) :=
  inv_of_checks rfl (by decide +kernel) (fun r => by cases r <;> decide +kernel)

theorem inv_text : Inv withText :=
  inv_of_checks rfl (by decide +kernel) (fun r => by cases r <;> decide +kernel)

theorem inv_withText (w : Word) : Inv (cmd w withText) :=
  ⟨inv_text.params, inv_text.transmitIdle, inv_text.transmit, inv_text.listenIdle, inv_text.poll,
    inv_text.accumulator, inv_text.text, inv_text.queue, inv_text.config, inv_text.widths, inv_text.memories⟩

theorem inv_listed (w : Word) : Inv (listed w withText) :=
  ⟨inv_text.params, inv_text.transmitIdle, inv_text.transmit, inv_text.listenIdle, inv_text.poll,
    inv_text.accumulator, inv_text.text, inv_text.queue, inv_text.config, inv_text.widths, inv_text.memories⟩

theorem ascii_withText (w : Word) : AsciiText (cmd w withText) := by
  intro j hj
  have : j = 0 ∨ j = 1 := by
    have : j < 2 := hj
    omega
  rcases this with rfl | rfl
  · exact ⟨0x48, rfl, by decide⟩
  · exact ⟨0x69, rfl, by decide⟩

theorem witness_DecodeOfEncodeIsTheCommand :
    (Instr.setcfg 7 0xFFFFFF).wellFormed = true ∧ (Instr.getsr 15).wellFormed = true ∧
    (Instr.txput 0xFF).wellFormed = true := by decide

theorem witness_EncodeOfDecodeIsTheWord : decode 0x17000400 = some (.setcfg 7 1024) := by decide

theorem witness_CommandRowsAreMaskAndMatch :
    (⟨"SETCFG", 0xF8000000, 0x10000000⟩ : OpcodeRow) ∈ opcodeRows ∧ (0x17FFFFFF : Word) &&& 0xF8000000 = 0x10000000 := by
  decide

theorem witness_EveryWordIsOneCommandOrIllegal :
    (cmd 0x17FFFFFF State.reset).port.cmd = some 0x17FFFFFF ∧ decode 0x17FFFFFF ≠ none ∧
    (cmd 0x1FFFFFFF State.reset).port.cmd = some 0x1FFFFFFF ∧ decode 0x1FFFFFFF = none := by decide

theorem witness_ReservedEncodingsAreIllegal :
    (0xD ≤ ((0xD0000000 : Word) >>> 28).toNat ∧ (cmd 0xD0000000 (sending 5)).port.cmd = some 0xD0000000) ∧
    ((0x28000000 : Word) >>> 28 = 2 ∧ (0x28000000 : Word).getLsbD 27 = true ∧
      (cmd 0x28000000 (sending 5)).port.cmd = some 0x28000000) ∧
    8 ≤ (8 : BitVec 4).toNat := by decide

theorem witness_StepRunsTheDecodedCommand :
    (cmd 0x60000000 (sending 5)).port.rst = false ∧ (cmd 0x60000000 (sending 5)).port.cmd = some 0x60000000 ∧
    decode 0x60000000 = some .txstop ∧ (cmd 0xD0000000 (hearing 5 [])).port.rst = false ∧
    (cmd 0xD0000000 (hearing 5 [])).port.cmd = some 0xD0000000 ∧ decode 0xD0000000 = none := by decide

theorem witness_PeriodWithoutCommandOnlyTicks :
    (sending 5).port.rst = false ∧ (sending 5).port.cmd = none := by decide

/-- Inputs listed for the next period, and none. -/
theorem witness_PeriodEndBringsTheNextInputs :
    (listed 0 (sending 5)).future = ⟨false, none, false, false, [9]⟩ :: [⟨false, none, true, false, []⟩] ∧
    (sending 5).future = [] ∧ (∃ t, step (listed 0 (sending 5)) = .next t) ∧ ∃ t, step (sending 5) = .next t :=
  ⟨rfl, rfl, ⟨_, rfl⟩, ⟨_, rfl⟩⟩

theorem witness_ResetPeriodGivesTheResetValues :
    ({ sending 5 with port := { State.reset.port with rst := true, cmd := some 0x50000000 } } : State).port.rst = true ∧
    (sending 5).config = Config.reference := ⟨rfl, rfl⟩

theorem witness_EveryStepKeepsTheInvariant : ∃ t, Inv (hearing 4799 [3, 200, 7, 200]) ∧
    step (hearing 4799 [3, 200, 7, 200]) = .next t ∧ (t.mode == .listening) = true := by
  obtain ⟨t, h, hm⟩ := exists_of_check (o := step (hearing 4799 [3, 200, 7, 200]))
    (p := fun t => t.mode == .listening) (by decide +kernel)
  exact ⟨t, inv_hearing, h, hm⟩

theorem witness_EveryStepCompletes : Inv (sending 5) := inv_sending

theorem witness_MemoriesStayCanonical :
    MemoriesCanonical (cmd 0x30000048 withText) ∧ ∃ t, step (cmd 0x30000048 withText) = .next t :=
  ⟨by decide, (exists_of_check (p := fun t => t.txlen == 3) (by decide +kernel)).imp (fun _ h => h.1)⟩

theorem witness_ClockCountsEveryPeriod :
    (∃ t, step (sending 5) = .next t ∧ (sending 5).port.rst = false) ∧
    (∃ t, step { sending 5 with port := { State.reset.port with rst := true } } = .next t) ∧
    ∃ t, exec .nop (sending 5) = .next t := ⟨⟨_, rfl, rfl⟩, ⟨_, rfl⟩, ⟨_, rfl⟩⟩

theorem witness_NopDoesNothing :
    (0x00000001 : Word) >>> 28 = 0x00000000 >>> 28 ∧ (0x00000001 : Word) &&& 0xFFFFFFFF ≠ 0x00000000 := by decide

theorem witness_SetcfgWritesOneRegister :
    (7 : BitVec 4).toNat < 8 ∧ cfgRegOf 7 = some .nbins ∧ (sending 5).mode ≠ .idle ∧ State.reset.mode = .idle ∧
    legal State.reset.config .nbins 1025 = false ∧ legal State.reset.config .nbins 1024 = true ∧
    cfgRegOf 5 = some .detth ∧ legal State.reset.config .detth 0xFFFF01 = true ∧
    legal State.reset.config .detth 0xFFFF00 = false ∧
    (0x18000000 : Word) >>> 28 = 0x10000000 >>> 28 ∧ (0x18000000 : Word) &&& 0xF8000000 ≠ 0x10000000 := by decide

theorem witness_GetcfgReadsOneRegister :
    (7 : BitVec 4).toNat < 8 ∧ cfgRegOf 7 = some .nbins ∧
    (0x20000001 : Word) >>> 28 = 0x20000000 >>> 28 ∧ (0x20000001 : Word) &&& 0xF8FFFFFF ≠ 0x20000000 := by decide

theorem witness_GetsrReadsAView :
    (10 : BitVec 4) ≠ 11 ∧
    (0xA0000001 : Word) >>> 28 = 0xA0000000 >>> 28 ∧ (0xA0000001 : Word) &&& 0xF0FFFFFF ≠ 0xA0000000 := by decide

theorem witness_StatusRegistersEightToFifteen :
    (hearing 0 []).reading.mag < 2 ^ 15 ∧ (hearing 0 []).reading.bin < 2 ^ 16 ∧
    ({ hearing 0 [] with reading := ⟨true, 65535, 32767⟩ } : State).reading.mag < 2 ^ 15 := by decide

theorem witness_ClockHalvesBelongTogether :
    ∃ t, exec (.getsr 11) { State.reset with clk := 2 ^ 48 - 1 } = .next t ∧ t.clkhiLatch = t.clkhiLatch ∧
      ({ State.reset with clk := 2 ^ 48 - 1 } : State).clk < 2 ^ 48 := ⟨_, rfl, rfl, by decide⟩

theorem witness_EvclrClearsTheSelectedEvents :
    (0xB0000010 : Word) >>> 28 = 0xB0000000 >>> 28 ∧ (0xB0000010 : Word) &&& 0xFFFFFFF0 ≠ 0xB0000000 := by decide

theorem witness_IrqenSetsTheMask :
    (0xC1000000 : Word) >>> 28 = 0xC0000000 >>> 28 ∧ (0xC1000000 : Word) &&& 0xFFFFFFF0 ≠ 0xC0000000 := by decide

theorem witness_TxputAppendsOneCharacter :
    (sending 5).mode ≠ .idle ∧ withText.mode = .idle ∧ withText.txlen < withText.config.txbufLen ∧
    ({ withText with txlen := 256 } : State).txlen = withText.config.txbufLen ∧
    ({ withText with txlen := 255 } : State).txlen < withText.config.txbufLen ∧
    (0x30000148 : Word) >>> 28 = 0x30000000 >>> 28 ∧ (0x30000148 : Word) &&& 0xFFFFFF00 ≠ 0x30000000 := by decide

theorem witness_TxclrEmptiesTheText :
    (hearing 0 []).mode ≠ .idle ∧ withText.mode = .idle ∧
    (0x41000000 : Word) >>> 28 = 0x40000000 >>> 28 ∧ (0x41000000 : Word) &&& 0xFFFFFFFF ≠ 0x40000000 := by decide

theorem witness_RxgetTakesTheOldestCharacter :
    State.reset.rxfifo = [] ∧ ({ sending 5 with rxfifo := [0] } : State).rxfifo = 0 :: [] ∧
    (0x90000100 : Word) >>> 28 = 0x90000000 >>> 28 ∧ (0x90000100 : Word) &&& 0xFFFFFFFF ≠ 0x90000000 := by decide

theorem witness_TransmitStartsThePlan :
    (hearing 0 []).mode ≠ .idle ∧
    ({ withText with port := { State.reset.port with sinkRdy := false } } : State).port.sinkRdy = false ∧
    withText.mode = .idle ∧ withText.port.sinkRdy = true ∧
    ((∀ j < 2, (memRead [(0, (0x7F : Byte)), (1, 0x80)] j).isSome) ∧
      ∃ j < 2, ∃ c : Byte, memRead [(0, 0x7F), (1, 0x80)] j = some c ∧ 0x80 ≤ c.toNat) ∧
    AsciiText (cmd 0x50000000 withText) ∧ AsciiText State.reset ∧
    (0x50000001 : Word) >>> 28 = 0x50000000 >>> 28 ∧ (0x50000001 : Word) &&& 0xFFFFFFFF ≠ 0x50000000 :=
  ⟨by decide, rfl, rfl, rfl, ⟨by decide, 1, by decide, 0x80, rfl, by decide⟩, ascii_withText _,
    fun _ h => absurd h (Nat.not_lt_zero _), by decide, by decide⟩

theorem witness_UnwrittenTextStopsTheModel :
    ({ withText with txbuf := [(0, 0x48)] } : State).mode = .idle ∧ withText.port.sinkRdy = true ∧
    1 < withText.txlen ∧ memRead [(0, (0x48 : Byte))] 1 = none ∧ (∀ k < 1, (memRead [(0, (0x48 : Byte))] k).isSome) ∧
    (sending 768).mode = .transmitting ∧ (sending 768).txcnt < (sending 768).nsym * (sending 768).cfg.tsym.toNat ∧
    768 / (sending 768).cfg.tsym.toNat / 8 = 1 ∧ 767 / (sending 767).cfg.tsym.toNat / 8 = 0 ∧
    memRead ({ sending 768 with txbuf := [(0, 0x48)] } : State).txbuf 1 = none ∧
    withText.config.txbufLen < ({ withText with txlen := 257 } : State).txlen := by decide

theorem witness_TxstopEndsATransmission :
    (sending 5).mode = .transmitting ∧ (hearing 0 []).mode ≠ .transmitting ∧
    (∃ t, exec .txstop (sending 5) = .next t) ∧
    (0x60000001 : Word) >>> 28 = 0x60000000 >>> 28 ∧ (0x60000001 : Word) &&& 0xFFFFFFFF ≠ 0x60000000 :=
  ⟨rfl, by decide, ⟨_, rfl⟩, by decide, by decide⟩

theorem witness_ListenStartsASession :
    (sending 5).mode ≠ .idle ∧
    ({ withText with port := { State.reset.port with inOk := false } } : State).port.inOk = false ∧
    withText.mode = .idle ∧ withText.port.inOk = true ∧
    (0x7F000000 : Word) >>> 28 = 0x70000000 >>> 28 ∧ (0x7F000000 : Word) &&& 0xFFFFFFFF ≠ 0x70000000 := by decide

theorem witness_RxstopEndsASession :
    (hearing 5 []).mode = .listening ∧ (sending 5).mode ≠ .listening ∧
    (∃ t, exec .rxstop (hearing 5 []) = .next t) ∧
    (0x80000001 : Word) >>> 28 = 0x80000000 >>> 28 ∧ (0x80000001 : Word) &&& 0xFFFFFFFF ≠ 0x80000000 :=
  ⟨rfl, by decide, ⟨_, rfl⟩, by decide, by decide⟩

theorem witness_FailedCommandChangesNothing :
    ∃ t, exec .transmit (sending 5) = .next t ∧ t.rsp.status ≠ 0 := ⟨_, rfl, by decide⟩

theorem witness_CommandsByMode :
    (Instr.setcfg 2 0).wellFormed = true ∧ ∃ t, exec (.setcfg 2 0) State.reset = .next t := ⟨by decide, _, rfl⟩

theorem witness_CommandsWriteOnlyTheirOwnState :
    (∃ t, exec (.txput 0x21) withText = .next t ∧ t.txlen ≠ withText.txlen) ∧
    (∃ t, exec (.setcfg 2 8) withText = .next t ∧ t.cfg ≠ withText.cfg) ∧
    (∃ t, exec .rxget { withText with rxfifo := [1] } = .next t ∧ t.rxfifo ≠ [1]) ∧
    (∃ t, exec (.evclr 1) { withText with events := 3 } = .next t ∧ t.events ≠ 3) ∧
    (∃ t, exec (.irqen 1) withText = .next t ∧ t.irqen ≠ withText.irqen) ∧
    (∃ t, exec (.getsr 11) { withText with clk := 2 ^ 32 } = .next t ∧ t.clkhiLatch ≠ 0) ∧
    (∃ t, exec .transmit withText = .next t ∧ t.t0 ≠ withText.t0 ∧ t.mode ≠ withText.mode) ∧
    (∃ t, exec .rxstop (hearing 5 []) = .next t ∧ t.tickcnt ≠ 5) ∧
    (∃ t, exec .listen { withText with reading := ⟨true, 1, 1⟩ } = .next t ∧ t.reading ≠ ⟨true, 1, 1⟩) :=
  ⟨⟨_, rfl, by decide⟩, ⟨_, rfl, by decide⟩, ⟨_, rfl, by decide⟩, ⟨_, rfl, by decide⟩, ⟨_, rfl, by decide⟩,
    ⟨_, rfl, by decide⟩, ⟨_, rfl, by decide⟩, ⟨_, rfl, by decide⟩, ⟨_, rfl, by decide⟩⟩

theorem witness_BusyLeavesTheSessionUntouched :
    (cmd 0x70000000 (sending 5)).mode ≠ .idle ∧ (cmd 0x70000000 (sending 5)).port.rst = false ∧
    (cmd 0x70000000 (sending 5)).port.cmd = some 0x70000000 ∧ ∃ t, step (cmd 0x70000000 (sending 5)) = .next t :=
  ⟨by decide, rfl, rfl, _, rfl⟩

theorem witness_TickCountsOrCompletesATransmission :
    State.reset.mode = .idle ∧ (sending 25534).mode = .transmitting ∧ toneOut (sending 25534) = .ok 0 ∧
    (sending 25534).txcnt + 1 ≠ 16 * 96 + 24000 ∧ toneOut (sending 25535) = .ok 0 ∧
    (sending 25535).txcnt + 1 = 16 * 96 + 24000 := by decide +kernel

theorem witness_TransmissionTakesItsTime :
    Inv (listed 0x50000000 withText) ∧ (listed 0x50000000 withText).mode = .idle ∧
    (listed 0x50000000 withText).port.rst = false ∧ (listed 0x50000000 withText).port.cmd = some 0x50000000 ∧
    (listed 0x50000000 withText).port.sinkRdy = true ∧ AsciiText (listed 0x50000000 withText) ∧
    QuietFuture (listed 0x50000000 withText) ∧ 8 * withText.txlen * withText.cfg.tsym.toNat = 1536 ∧
    withText.config.guardTicks = 24000 :=
  ⟨inv_listed _, rfl, rfl, rfl, rfl, ascii_withText 0, by decide, by decide, rfl⟩

theorem witness_PlanIsContiguous :
    State.reset.nsym = 0 ∧ (sending 5).nsym = 8 * (sending 5).txlen ∧
    memReadRange (sending 5).txbuf 0 (sending 5).txlen = .ok [0x48, 0x69] ∧
    encodeText [0x48, 0x69] = .ok [false, true, false, false, true, false, false, false,
      false, true, true, false, true, false, false, true] := by decide

/-- V51, V55, V52: the trapezoid, the trapezoid without sustain, the triangle. -/
theorem witness_EnvelopeIsTheTrapezoid :
    (0 < 8 ∧ 0 < 2 ∧ 2 * 2 ≤ 8 ∧ 2 ≤ 8 - 2) ∧ 2 * 480 ≤ 960 ∧ (4 < 5 ∧ 5 < 2 * 10) ∧ (0 < 1 ∧ 1 < 2 * 1) := by decide

theorem witness_TuningWordIsTheNearest : 0 < Config.reference.fs := by decide

theorem witness_OutputFollowsThePlan :
    (sending 1535).mgain.toNat ≤ (sending 1535).config.ampOne ∧ toneOut (sending 1536) = .ok 0 ∧
    toneOut (hearing 0 []) = .ok 0 ∧ toneOut { sending 1 with mgain := 0 } = .ok 0 ∧
    toneOut (sending 96) = .ok 0 ∧ (sending 96).txcnt % 96 = 0 ∧ 0 < (sending 96).cfg.ramp.toNat ∧
    (sending 1535).mode = .transmitting ∧ (sending 1535).txcnt < (sending 1535).nsym * (sending 1535).cfg.tsym.toNat ∧
    toneSpec (sending 1535) (1535 / 96) = some ⟨19000, 1442, 1538⟩ := by decide +kernel

theorem witness_PollTimerIsPeriodic :
    Inv (listed 0x70000000 withText) ∧ (listed 0x70000000 withText).mode = .idle ∧
    (listed 0x70000000 withText).port.rst = false ∧ (listed 0x70000000 withText).port.cmd = some 0x70000000 ∧
    (listed 0x70000000 withText).port.inOk = true ∧ QuietFuture (listed 0x70000000 withText) :=
  ⟨inv_listed _, rfl, rfl, rfl, rfl, by decide⟩

theorem witness_ListenTickCountsOrPostsDeviceError :
    (hearing 4798 []).mode = .listening ∧ (hearing 4798 []).tickcnt.toNat + 1 < (hearing 4798 []).cfg.poll.toNat ∧
    (hearing 4799 []).tickcnt.toNat + 1 = (hearing 4799 []).cfg.poll.toNat ∧
    ({ hearing 4799 [] with port := { State.reset.port with inOk := false } } : State).port.inOk = false := by decide

/-- A valid and an invalid reading; the largest sample and the last bin listed. -/
theorem witness_DetectionReadsTheFrame :
    check (tick (hearing 4799 [3, 255, 7, 200])) (fun t => t.reading.valid) = true ∧
    check (tick (hearing 4799 [3, 8, 7, 0])) (fun t => !t.reading.valid) = true ∧
    (hearing 4799 [3, 255, 7, 200]).port.frame[1]? = some (magmax Config.reference) ∧
    (hearing 4799 [3, 255, 7, 200]).port.frame[3]? = some 200 ∧ 200 ≤ magmax Config.reference ∧
    (hearing 4799 [3, 200, 7, 200]).mode = .listening ∧
    (hearing 4799 [3, 200, 7, 200]).tickcnt.toNat + 1 = (hearing 4799 [3, 200, 7, 200]).cfg.poll.toNat ∧
    (hearing 4799 [3, 200, 7, 200]).port.inOk = true ∧ 1 ≤ (hearing 4799 [3, 200, 7, 200]).cfg.nbins.toNat := by
  decide +kernel

theorem witness_ThresholdIsTheDecibelMeasure :
    Config.reference.Legal ∧ 0 < 9 ∧ (-49 : Int) ≤ -49 ∧ above Config.reference (-30) 9 = true ∧
    above Config.reference (-30) 8 = false ∧ above Config.reference (-49) 1 = true :=
  ⟨reference_legal, by decide, by decide, by decide +kernel, by decide +kernel, by decide +kernel⟩

theorem witness_WindowIsTheFrequencyDistance :
    1 ≤ State.reset.cfg.nbins.toNat ∧ State.reset.config = Config.reference ∧
    inWindow State.reset 800 19000 = true ∧ inWindow State.reset 799 19000 = false := by decide +kernel

theorem witness_ClassificationIsByWindow :
    classifyBin State.reset 758 = some false ∧ classifyBin State.reset 757 = none ∧
    ({ State.reset with cfg := { State.reset.cfg with delta := 0 } } : State).cfg.delta = 0 ∧
    1 ≤ State.reset.cfg.nbins.toNat ∧ 2 * State.reset.config.tol < State.reset.cfg.delta.toNat ∧
    2 * State.reset.config.tol < ({ State.reset with cfg := { State.reset.cfg with delta := 501 } } : State).cfg.delta.toNat
    := by decide +kernel

theorem witness_PushQueuesOrOverflows :
    ({ State.reset with rxfifo := List.replicate 15 1 } : State).rxfifo.length < State.reset.config.rxfifoDepth ∧
    State.reset.config.rxfifoDepth ≤ ({ State.reset with rxfifo := List.replicate 16 1 } : State).rxfifo.length := by
  decide

theorem witness_AccumulatedBitsAreTheDecodedText :
    State.reset.rxcnt = 0 ∧ State.reset.rxshift = 0 ∧
    ({ State.reset with rxfifo := List.replicate 16 1 } : State).rxfifo.length ≤ State.reset.config.rxfifoDepth := by
  decide

theorem witness_EncodeGivesTheBits :
    (∃ c ∈ [(0x7F : Byte), 0x80], 0x80 ≤ c.toNat) ∧ (∀ c ∈ [(0x00 : Byte), 0x7F], c.toNat < 0x80) ∧
    ([0x00, 0x7F] : List Byte)[15 / 8]? = some 0x7F := by decide

theorem witness_DecodeGroupsTheBits :
    (decodeBits [true, true, true, true, true, true, true, true, false])[0]? = some 0xFF := by decide

theorem witness_TextRoundTrip : ∀ c ∈ [(0x00 : Byte), 0x7F], c.toNat < 0x80 := by decide

theorem witness_ModeMovesOnlyAlongItsEdges :
    (∃ t, step (sending 5) = .next t ∧ (sending 5).mode = .transmitting) ∧
    (∃ t, step (sending 25535) = .next t ∧ (t.mode == .idle) = true) ∧
    (∃ t, step (cmd 0x80000000 (hearing 5 [])) = .next t ∧ (t.mode == .idle) = true) ∧
    (∃ t, step (cmd 0x50000000 withText) = .next t ∧ (t.mode == .transmitting) = true) ∧
    ∃ t, step (cmd 0x70000000 withText) = .next t ∧ (t.mode == .listening) = true :=
  ⟨⟨_, rfl, rfl⟩, exists_of_check (by decide +kernel), exists_of_check (by decide +kernel),
    exists_of_check (by decide +kernel), exists_of_check (by decide +kernel)⟩

theorem witness_SessionLocksConfigurationAndText :
    (∃ t, step (cmd 0x12000008 (sending 5)) = .next t) ∧ (sending 5).mode ≠ .idle ∧
    (cmd 0x12000008 (sending 5)).port.rst = false := ⟨⟨_, rfl⟩, by decide, rfl⟩

theorem witness_EventsAreSticky :
    (∃ t, step (cmd 0xB0000001 { State.reset with events := 3 }) = .next t) ∧
    (cmd 0xB0000001 { State.reset with events := 3 }).port.rst = false ∧ (3 : BitVec 4).getLsbD 0 = true ∧
    (3 : BitVec 4).getLsbD 1 = true := ⟨⟨_, rfl⟩, by decide, by decide, by decide⟩

theorem witness_ErrorsArePostedByDetectionOnly :
    ∃ t, step (cmd 0x70000000 (sending 5)) = .next t ∧ (cmd 0x70000000 (sending 5)).port.rst = false ∧
      (t.rspValid && t.rsp.status == 0x02) = true := by
  obtain ⟨t, h, hm⟩ := exists_of_check (o := step (cmd 0x70000000 (sending 5)))
    (p := fun t => t.rspValid && t.rsp.status == 0x02) (by decide +kernel)
  exact ⟨t, h, rfl, hm⟩

theorem witness_SinkPinIsReadByTransmitOnly :
    (sending 5).port.cmd ≠ some 0x50000000 ∧ (sending 5).port.cmd ≠ some 0xA2000000 := by decide

theorem witness_FrameIsReadByDetectionOnly :
    (∃ t, step (hearing 4798 [1]) = .next t ∧ (t.mode == .listening && t.tickcnt != 0) = true) ∧
    ∃ t, step (sending 5) = .next t ∧ (t.mode != .listening) = true :=
  ⟨exists_of_check (by decide +kernel), exists_of_check (by decide +kernel)⟩

end Sys2Proof.Tests
end

section
/-! The state family (10_state.md): the invariant of R57, the clock, the status views, the frame of the
commands and the sticky events. The lemmas go update by update, through `CommandEffect` for a command and
through the timers for a tick step; the obligations are assembled from them at the end. -/

namespace Sys2Proof

open Sys2Proof.Machine

/-! ### What a command writes -/

theorem cfgRead_cfgWrite (q r : CfgReg) (v : CfgWord) (s : State) :
    cfgRead q (cfgWrite r v s) = if q = r then v else cfgRead q s := by
  cases r <;> cases q <;> rfl

theorem sregOf_eq_clklo {n : BitVec 4} (h : sregOf n = .clklo) : n = 11 := by
  revert n
  decide

/-- A command that answers leaves one of its effects with some response at the port; a failed one leaves
the effect "nothing". -/
theorem exec_effect {i : Instr} {s t : State} (h : exec i s = .next t) :
    ∃ st d e, t = answer st d e ∧ CommandEffect i s e := by
  rcases exec_cases h with ⟨d, e, ht, he⟩ | ⟨c, ht, _⟩
  · exact ⟨0, d, e, ht, he⟩
  · exact ⟨causeCode c, 0, s, ht, .same i s⟩

theorem exec_frame {i : Instr} {s t : State} (h : exec i s = .next t) : CommandFrame s t := by
  obtain ⟨st, d, e, rfl, he⟩ := exec_effect h
  exact { he.frame with }

section Effects

variable {i : Instr} {s e : State}

theorem Machine.CommandEffect.cfg_written (h : CommandEffect i s e) (hc : e.cfg ≠ s.cfg) :
    ∃ r v, i = .setcfg r v := by
  cases h with
  | setcfg => exact ⟨_, _, rfl⟩
  | _ => simp at hc

theorem Machine.CommandEffect.txlen_written (h : CommandEffect i s e) (hc : e.txlen ≠ s.txlen) :
    i = .txclr ∨ ∃ c, i = .txput c := by
  cases h with
  | txclr => exact .inl rfl
  | txput c => exact .inr ⟨c, rfl⟩
  | _ => simp at hc

/-- Only `TXPUT` writes `TXBUF`, and only the cell at `TXLEN`. -/
theorem Machine.CommandEffect.txbuf_cases (h : CommandEffect i s e) :
    e.txbuf = s.txbuf ∨ ∃ c, i = .txput c ∧ e.txbuf = memWrite s.txbuf s.txlen c := by
  cases h with
  | txput c => exact .inr ⟨c, rfl, rfl⟩
  | _ => exact .inl (by simp)

theorem Machine.CommandEffect.rxfifo_written (h : CommandEffect i s e) (hc : e.rxfifo ≠ s.rxfifo) : i = .rxget := by
  cases h with
  | rxget => rfl
  | _ => simp at hc

/-- Only `EVCLR` writes `EVENTS`, and it only clears the bits of its mask. -/
theorem Machine.CommandEffect.events_cases (h : CommandEffect i s e) :
    e.events = s.events ∨ ∃ m, i = .evclr m ∧ e.events = s.events &&& ~~~m := by
  cases h with
  | evclr m => exact .inr ⟨m, rfl, rfl⟩
  | _ => exact .inl (by simp)

theorem Machine.CommandEffect.irqen_written (h : CommandEffect i s e) (hc : e.irqen ≠ s.irqen) :
    ∃ m, i = .irqen m := by
  cases h with
  | irqen m => exact ⟨m, rfl⟩
  | _ => simp at hc

theorem Machine.CommandEffect.clkhiLatch_written (h : CommandEffect i s e) (hc : e.clkhiLatch ≠ s.clkhiLatch) :
    i = .getsr 11 := by
  cases h with
  | getsr n =>
    have hn : sregOf n = .clklo := by
      by_contra hn
      simp [hn] at hc
    rw [sregOf_eq_clklo hn]
  | _ => simp at hc

theorem Machine.CommandEffect.t0_written (h : CommandEffect i s e) (hc : e.t0 ≠ s.t0) : i = .transmit := by
  cases h with
  | transmit => rfl
  | _ => simp at hc

/-- `LISTEN` and `RXSTOP` write the mode, but none of the transmit registers. -/
theorem Machine.CommandEffect.session_written (h : CommandEffect i s e)
    (hc : e.mode ≠ s.mode ∨ e.mgain ≠ s.mgain ∨ e.txcnt ≠ s.txcnt ∨ e.nsym ≠ s.nsym) :
    i = .transmit ∨ i = .txstop ∨ (i = .listen ∨ i = .rxstop) ∧
      e.mgain = s.mgain ∧ e.txcnt = s.txcnt ∧ e.nsym = s.nsym := by
  cases h with
  | transmit => exact .inl rfl
  | txstop => exact .inr (.inl rfl)
  | listen => exact .inr (.inr ⟨.inl rfl, rfl, rfl, rfl⟩)
  | rxstop => exact .inr (.inr ⟨.inr rfl, rfl, rfl, rfl⟩)
  | _ => simp at hc

theorem Machine.CommandEffect.receiver_written (h : CommandEffect i s e)
    (hc : e.tickcnt ≠ s.tickcnt ∨ e.rxcnt ≠ s.rxcnt ∨ e.rxshift ≠ s.rxshift) : i = .listen ∨ i = .rxstop := by
  cases h with
  | listen => exact .inl rfl
  | rxstop => exact .inr rfl
  | _ => simp at hc

theorem Machine.CommandEffect.reading_written (h : CommandEffect i s e) (hc : e.reading ≠ s.reading) :
    i = .listen := by
  cases h with
  | listen => rfl
  | _ => simp at hc

end Effects

/-! ### The invariant, update by update -/

section Invariant

variable {s : State}

/-- The fields that `Inv` does not speak of can be anything. -/
theorem Inv.withUnseen (h : Inv s) (ev en : BitVec 4) (er : BitVec 8) (latch : BitVec 16) (rv : Bool)
    (rsp : Response) (o : Int) (p : InputPorts) (fut : List InputPorts) (n : Nat) :
    Inv { s with
      events := ev, irqen := en, err := er, clkhiLatch := latch, rspValid := rv, rsp := rsp, out := o,
      port := p, future := fut, draws := n } :=
  { h with }

theorem Inv.poll_pos (h : Inv s) : 0 < s.cfg.poll.toNat := of_decide_eq_true (h.config .poll)

theorem Inv.nbins_range (h : Inv s) : 1 ≤ s.cfg.nbins.toNat ∧ s.cfg.nbins.toNat ≤ s.config.nbinsMax :=
  of_decide_eq_true (h.config .nbins)

theorem Inv.nbinsMax_pos (h : Inv s) : 0 < s.config.nbinsMax :=
  Nat.le_trans h.nbins_range.1 h.nbins_range.2

theorem Inv.after_setEvents (h : Inv s) (m : BitVec 4) : Inv (setEvents m s) := h.withUnseen ..

theorem Inv.after_post (h : Inv s) (c : Cause) : Inv (post c s) := h.withUnseen ..

theorem Inv.after_nextPeriod (h : Inv s) : Inv (nextPeriod s) := by
  rcases nextPeriod_cases s with ⟨_, hn⟩ | ⟨p, rest, _, hn⟩ <;> rw [hn] <;> exact h.withUnseen ..

theorem Inv.after_cfgWrite (h : Inv s) (hm : s.mode = .idle) {r : CfgReg} {v : CfgWord}
    (hl : legal s.config r v = true) : Inv (cfgWrite r v s) := by
  have hc : ConfigLegal (cfgWrite r v s) := fun q => by
    rw [cfgRead_cfgWrite, cfgWrite_config]
    split
    · next hq => rwa [hq]
    · exact h.config q
  cases r <;> exact { h with config := hc, transmit := by simp [hm], poll := by simp [hm] }

theorem Inv.after_txput (h : Inv s) (hm : s.mode = .idle) (hl : s.txlen < s.config.txbufLen) (c : Byte) :
    Inv { s with txbuf := memWrite s.txbuf s.txlen c, txlen := s.txlen + 1 } where
  __ := h
  transmit := by simp [hm]
  text := ⟨hl, fun j hj => by
    rw [memRead_memWrite]
    split
    · rfl
    · exact h.text.2 j (by simp only at hj; omega)⟩
  memories := ⟨memWrite_wf h.memories.1 _ _, h.memories.2⟩

theorem Inv.after_txclr (h : Inv s) (hm : s.mode = .idle) : Inv { s with txlen := 0 } :=
  { h with transmit := by simp [hm], text := ⟨Nat.zero_le _, fun _ hj => absurd hj (Nat.not_lt_zero _)⟩ }

theorem Inv.after_startTransmit (h : Inv s) (hm : s.mode = .idle) : Inv (startTransmit s) where
  __ := h
  transmitIdle := by simp
  transmit := fun _ => by
    have := h.params.guard_ge
    simp [Nat.mod_eq_of_lt h.widths.1]
    omega
  listenIdle := fun _ => h.listenIdle (by simp [hm])
  poll := by simp
  widths := ⟨h.widths.1, h.widths.1, h.widths.2.2⟩

theorem Inv.after_endTransmit (h : Inv s) (hm : s.mode = .transmitting) : Inv (endTransmit s) where
  __ := h
  transmitIdle := by simp
  transmit := by simp
  listenIdle := fun _ => h.listenIdle (by simp [hm])
  poll := by simp

theorem Inv.after_startListen (h : Inv s) (hm : s.mode = .idle) : Inv (startListen s) where
  __ := h
  transmitIdle := fun _ => h.transmitIdle (by simp [hm])
  transmit := by simp
  listenIdle := by simp
  poll := fun _ => h.poll_pos
  accumulator := by simp
  widths := ⟨h.widths.1, h.widths.2.1, h.nbinsMax_pos, Nat.zero_le _⟩

theorem Inv.after_endListen (h : Inv s) (hm : s.mode = .listening) : Inv (endListen s) where
  __ := h
  transmitIdle := fun _ => h.transmitIdle (by simp [hm])
  transmit := by simp
  listenIdle := by simp
  poll := by simp
  accumulator := by simp

theorem Inv.after_rxget (h : Inv s) {c : Byte} {rest : List Byte} (hq : s.rxfifo = c :: rest) :
    Inv { s with rxfifo := rest } :=
  { h with queue := by have := h.queue; simp only [QueueBounded, hq, List.length_cons] at this ⊢; omega }

theorem Inv.after_statusLatch (h : Inv s) (r : SReg) : Inv (statusLatch r s) := by
  unfold statusLatch
  split
  · exact h.withUnseen ..
  · exact h

/-- No effect of a command breaks the invariant. -/
theorem Inv.after_commandEffect {i : Instr} {e : State} (h : Inv s) (he : CommandEffect i s e) : Inv e := by
  cases he with
  | same => exact h
  | setcfg _ hm hl => exact h.after_cfgWrite hm hl
  | txput c hm hl => exact h.after_txput hm hl c
  | txclr hm => exact h.after_txclr hm
  | transmit hm _ _ _ => exact h.after_startTransmit hm
  | txstop hm => exact h.after_endTransmit hm
  | listen hm _ => exact h.after_startListen hm
  | rxstop hm => exact h.after_endListen hm
  | rxget hq => exact h.after_rxget hq
  | getsr n => exact h.after_statusLatch _
  | evclr m => exact h.withUnseen ..
  | irqen m => exact h.withUnseen ..

theorem Inv.after_commandPart {u : State} (h : Inv s) (hu : commandPart s = .next u) : Inv u := by
  rcases commandPart_cases hu with ⟨_, rfl⟩ | ⟨w, _, ⟨_, rfl⟩ | ⟨i, _, hi⟩⟩
  · exact h.withUnseen ..
  · exact h.withUnseen ..
  · obtain ⟨st, d, e, rfl, he⟩ := exec_effect hi
    exact (h.after_commandEffect he).withUnseen ..

/-! ### The invariant through a detection tick -/

theorem accumulateBit_bits {shift : BitVec 8} {cnt : BitVec 3} (h : shift.toNat < 2 ^ cnt.toNat) (b : Bool) :
    (accumulateBit shift cnt b).shift.toNat < 2 ^ (accumulateBit shift cnt b).cnt.toNat := by
  unfold accumulateBit
  dsimp only
  split
  · simp
  · next hc =>
    have hcnt : (cnt + 1).toNat = cnt.toNat + 1 := by bv_omega
    have hshift : (shift <<< 1).toNat < 2 ^ (cnt.toNat + 1) := by
      rw [BitVec.toNat_shiftLeft, Nat.shiftLeft_eq, pow_succ]
      exact Nat.lt_of_le_of_lt (Nat.mod_le _ _) (by omega)
    have hbit : ((BitVec.ofBool b).zeroExtend 8).toNat < 2 ^ (cnt.toNat + 1) := by
      refine Nat.lt_of_lt_of_le ?_ (Nat.pow_le_pow_right (by decide) (Nat.succ_le_succ (Nat.zero_le _)) : 2 ^ 1 ≤ _)
      cases b <;> decide
    simpa only [hcnt, BitVec.toNat_or] using Nat.or_lt_two_pow hshift hbit

theorem Inv.after_push (h : Inv s) (c : Byte) : Inv (push c s) := by
  unfold push
  split
  · next hl =>
    refine Inv.after_setEvents (s := { s with rxfifo := s.rxfifo ++ [c] }) ?_ evMsg
    exact { h with queue := by simpa [QueueBounded] using hl }
  · exact h.after_post _

theorem Inv.after_setAccumulator (h : Inv s) (hm : s.mode = .listening) {a : BitVec 8} {n : BitVec 3}
    (ha : a.toNat < 2 ^ n.toNat) : Inv (setAccumulator a n s) :=
  { h with listenIdle := by simp [hm], accumulator := ha }

theorem Inv.after_accumulate (h : Inv s) (hm : s.mode = .listening) (b : Bool) : Inv (accumulate b s) := by
  have ha := h.after_setAccumulator hm (accumulateBit_bits h.accumulator b)
  unfold accumulate
  dsimp only
  split
  · exact ha
  · exact ha.after_push _

theorem Inv.after_classify (h : Inv s) (hm : s.mode = .listening) (k : Nat) : Inv (classify k s) := by
  unfold classify
  split
  · exact h
  · exact h.after_accumulate hm _

theorem Inv.after_setReading (h : Inv s) {r : Reading} (hb : r.bin < s.config.nbinsMax)
    (hg : r.mag ≤ magmax s.config) : Inv (setReading r s) :=
  { h with widths := ⟨h.widths.1, h.widths.2.1, hb, hg⟩ }

theorem Inv.after_captureFrame (h : Inv s) : Inv (captureFrame s) :=
  { h with memories := ⟨h.memories.1, memCapture_wf h.memories.2 (portFrame_length s)⟩ }

/-- The scan of a captured frame finds a bin of the frame and one of its samples. -/
theorem peakScan_bounds (h : Inv s) :
    (peakScan (captureFrame s)).2 < s.config.nbinsMax ∧
      (peakScan (captureFrame s)).1 ≤ magmax s.config := by
  obtain ⟨hpos, hmax⟩ := h.nbins_range
  have hne : portFrame s ≠ [] := by
    rw [← List.length_pos_iff, portFrame_length]
    exact hpos
  rw [peakScan_captureFrame]
  have hget := (scanCells_spec hne).1
  obtain ⟨hlt, _⟩ := List.getElem?_eq_some_iff.1 hget
  rw [portFrame_length] at hlt
  exact ⟨Nat.lt_of_lt_of_le hlt hmax, frameSamples_le _ _ _ _ _ _ (List.mem_of_getElem? hget)⟩

theorem Inv.after_detectionTick (h : Inv s) (hm : s.mode = .listening) : Inv (detectionTick s) := by
  unfold detectionTick
  split
  · exact (h.after_setReading (r := ⟨false, 0, 0⟩) h.nbinsMax_pos (Nat.zero_le _)).after_post _
  · obtain ⟨hb, hg⟩ := peakScan_bounds h
    have hr := h.after_captureFrame.after_setReading (r := readingOf (captureFrame s) (peakScan (captureFrame s)))
      hb hg
    rcases detect_cases (captureFrame s) with ⟨_, hd⟩ | ⟨_, hd⟩ <;> rw [hd]
    · exact hr
    · exact (hr.after_setEvents _).after_classify hm _

/-! ### The invariant through a tick step -/

theorem Inv.after_setTickcnt (h : Inv s) (hm : s.mode = .listening) {n : BitVec 24}
    (hn : n.toNat < s.cfg.poll.toNat) : Inv (setTickcnt n s) :=
  { h with listenIdle := by simp [hm], poll := fun _ => hn }

theorem Inv.after_pollTimer (h : Inv s) (hm : s.mode = .listening) : Inv (pollTimer s) := by
  have hlt := h.poll hm
  unfold pollTimer
  split
  · exact (h.after_setTickcnt hm (n := 0) (Nat.zero_lt_of_lt hlt)).after_detectionTick hm
  · next hd =>
    have hd : s.tickcnt.toNat + 1 ≠ s.cfg.poll.toNat := by simpa [detectionDue] using hd
    exact h.after_setTickcnt hm (by bv_omega)

/-- Outside a transmission nothing but the width of `CLK` speaks of it. -/
theorem Inv.after_advanceClk (h : Inv s) (hm : s.mode ≠ .transmitting) : Inv (advanceClk s) where
  __ := h
  transmit := fun ht => absurd ht hm
  widths := ⟨Nat.mod_lt _ (Nat.two_pow_pos _), h.widths.2⟩

/-- `TXCNT` and `CLK` advance together. -/
theorem Inv.after_advanceClk_countTx (h : Inv s) (hm : s.mode = .transmitting)
    (hn : s.txcnt + 1 ≠ s.nsym * s.cfg.tsym.toNat + s.config.guardTicks) : Inv (advanceClk (countTx s)) where
  __ := h
  transmitIdle := by simp [hm]
  transmit := fun _ => by
    obtain ⟨hlt, hnsym, hgain, hclk⟩ := h.transmit hm
    refine ⟨?_, hnsym, hgain, ?_⟩
    · simp only [advanceClk_txcnt, countTx_txcnt]
      exact Nat.lt_of_le_of_ne hlt hn
    · simp [hclk, Nat.add_assoc]
  widths := ⟨Nat.mod_lt _ (Nat.two_pow_pos _), h.widths.2⟩

theorem Inv.after_advanceClk_timers (h : Inv s) : Inv (advanceClk (timers s)) := by
  cases hm : s.mode with
  | idle =>
    rw [show timers s = s by simp [timers, hm]]
    exact h.after_advanceClk (by simp [hm])
  | transmitting =>
    rw [show timers s = transmitTimer s by simp [timers, hm]]
    rcases transmitTimer_cases s with ⟨hn, ht⟩ | ⟨_, ht⟩ <;> rw [ht]
    · exact h.after_advanceClk_countTx hm hn
    · exact ((h.after_endTransmit hm).after_setEvents evTxdone).after_advanceClk (by simp)
  | listening =>
    rw [show timers s = pollTimer s by simp [timers, hm]]
    exact (h.after_pollTimer hm).after_advanceClk (by simp [(pollTimer_frame s).mode, hm])

theorem Inv.after_tick {t : State} (h : Inv s) (ht : tick s = .next t) : Inv t := by
  obtain ⟨o, _, rfl⟩ := tick_cases ht
  exact Inv.after_advanceClk_timers (s := driveOut o s) (h.withUnseen ..)

end Invariant

/-! ### The invariant at reset -/

section Reset

variable {c : Config} (p : InputPorts) (fut : List InputPorts) (n : Nat)

theorem ampReset_le (c : Config) : c.ampReset ≤ c.ampOne := by
  unfold Config.ampReset
  omega

/-- The reset values of R21 are legal under legal parameters. -/
theorem configLegal_initial (h : c.Legal) : ConfigLegal (State.initial c p fut n) := fun r => by
  have htsym := h.tsym_reset
  have hpoll := h.poll_reset
  cases r with
  | f0 => rfl
  | delta => rfl
  | ramp => rfl
  | detth => rfl
  | tsym => exact decide_eq_true (by omega : 1 ≤ c.ticks 2 1000 % 2 ^ 24)
  | poll => exact decide_eq_true (by omega : 1 ≤ c.ticks 100 1000 % 2 ^ 24)
  | amp => exact decide_eq_true (Nat.le_trans (Nat.mod_le c.ampReset (2 ^ 24)) (ampReset_le c))
  | nbins => exact decide_eq_true ⟨(by decide : 1 ≤ 1024), h.nbins_reset⟩

theorem inv_initial (h : c.Legal) : Inv (State.initial c p fut n) where
  params := h
  transmitIdle := fun _ => ⟨rfl, rfl, rfl⟩
  transmit := by simp [State.initial]
  listenIdle := fun _ => ⟨rfl, rfl, rfl⟩
  poll := by simp [State.initial]
  accumulator := by simp [State.initial]
  text := ⟨Nat.zero_le _, fun _ hj => absurd hj (Nat.not_lt_zero _)⟩
  queue := Nat.zero_le _
  config := configLegal_initial p fut n h
  widths := ⟨Nat.two_pow_pos _, Nat.two_pow_pos _, Nat.lt_of_lt_of_le (by decide : 0 < 1024) h.nbins_reset,
    Nat.zero_le _⟩
  memories := ⟨.nil, .nil⟩

end Reset

theorem reference_legal : Config.reference.Legal := by
  constructor <;> decide

/-! ### The clock -/

/-- A tick step advances `CLK` by one, mod `2^CLKW`, and writes no parameter (R49). -/
theorem tick_clk {s t : State} (h : tick s = .next t) :
    t.config = s.config ∧ t.clk = (s.clk + 1) % 2 ^ s.config.clkw := by
  obtain ⟨o, _, rfl⟩ := tick_cases h
  have hf := timers_frame (driveOut o s)
  refine ⟨hf.config, ?_⟩
  simp [hf.config, hf.clk]

/-! ### The status views, bit by bit and field by field -/

theorem readingView_toNat {r : Reading} (hm : r.mag < 2 ^ 15) (hb : r.bin < 2 ^ 16) :
    (readingView r).toNat = bitNat r.valid * 2 ^ 31 + r.mag * 2 ^ 16 + r.bin := by
  have hv : (BitVec.ofBool r.valid).toNat = bitNat r.valid := by cases r.valid <;> rfl
  simp only [readingView, BitVec.toNat_append, hv, BitVec.toNat_ofNat, Nat.mod_eq_of_lt hm, Nat.mod_eq_of_lt hb]
  rw [← Nat.shiftLeft_add_eq_or_of_lt hb, ← Nat.shiftLeft_add_eq_or_of_lt hm]
  simp only [Nat.shiftLeft_eq]
  omega

theorem rxaccView_toNat (s : State) : (rxaccView s).toNat = s.rxcnt.toNat * 2 ^ 8 + s.rxshift.toNat := by
  simp only [rxaccView, BitVec.toNat_append]
  rw [← Nat.shiftLeft_add_eq_or_of_lt s.rxshift.isLt]
  simp [Nat.shiftLeft_eq]

theorem rxne_eq (s : State) : rxne s = decide (1 ≤ s.rxfifo.length) := by
  unfold rxne
  cases s.rxfifo <;> simp

theorem txfull_eq (s : State) : txfull s = decide (s.txlen = s.config.txbufLen) := beq_eq_decide ..

theorem txtone_eq (s : State) :
    txtone s = decide (s.mode = .transmitting ∧ s.txcnt < s.nsym * s.cfg.tsym.toNat) := by
  unfold txtone
  rw [beq_eq_decide, Bool.decide_and]

/-- The level flags, bit by bit (R42). -/
theorem flagsView_getLsbD (s : State) (k : Nat) :
    (flagsView s).getLsbD k =
      match k with
      | 0 => s.port.sinkRdy
      | 1 => s.port.inOk
      | 2 => decide (1 ≤ s.rxfifo.length)
      | 3 => decide (s.txlen = s.config.txbufLen)
      | 4 => irq s
      | 5 => decide (s.mode = .transmitting ∧ s.txcnt < s.nsym * s.cfg.tsym.toNat)
      | _ => false := by
  simp only [flagsView, BitVec.getLsbD_append, rxne_eq, txfull_eq, txtone_eq]
  rcases k with _ | _ | _ | _ | _ | _ | k <;> simp

/-! ### The event bits -/

section Events

variable {s : State} {k : Nat}

theorem setEvents_sticky (h : s.events.getLsbD k = true) (m : BitVec 4) :
    (setEvents m s).events.getLsbD k = true := by
  simp [h]

theorem push_sticky (h : s.events.getLsbD k = true) (c : Byte) : (push c s).events.getLsbD k = true := by
  unfold push
  split
  · exact setEvents_sticky (s := { s with rxfifo := _ }) h _
  · exact setEvents_sticky (s := { s with err := _ }) h _

theorem accumulate_sticky (h : s.events.getLsbD k = true) (b : Bool) :
    (accumulate b s).events.getLsbD k = true := by
  unfold accumulate
  dsimp only
  split
  · exact h
  · exact push_sticky (s := setAccumulator (accumulateBit _ _ b).shift (accumulateBit _ _ b).cnt s) h _

theorem classify_sticky (h : s.events.getLsbD k = true) (n : Nat) : (classify n s).events.getLsbD k = true := by
  unfold classify
  split
  · exact h
  · exact accumulate_sticky h _

theorem detectionTick_sticky (h : s.events.getLsbD k = true) : (detectionTick s).events.getLsbD k = true := by
  unfold detectionTick
  split
  · exact setEvents_sticky (s := { setReading _ s with err := _ }) h _
  · rcases detect_cases (captureFrame s) with ⟨_, hd⟩ | ⟨_, hd⟩ <;> rw [hd]
    · exact h
    · exact classify_sticky (setEvents_sticky (s := setReading _ (captureFrame s)) h _) _

theorem timers_sticky (h : s.events.getLsbD k = true) : (timers s).events.getLsbD k = true := by
  unfold timers
  split
  · exact h
  · rcases transmitTimer_cases s with ⟨_, ht⟩ | ⟨_, ht⟩ <;> rw [ht]
    · exact h
    · exact setEvents_sticky h evTxdone
  · unfold pollTimer
    split
    · exact detectionTick_sticky (s := setTickcnt 0 s) h
    · exact h

theorem tick_sticky {t : State} (h : s.events.getLsbD k = true) (ht : tick s = .next t) :
    t.events.getLsbD k = true := by
  obtain ⟨o, _, rfl⟩ := tick_cases ht
  exact timers_sticky (s := driveOut o s) h

theorem commandPart_sticky {u : State} (h : s.events.getLsbD k = true) (hu : commandPart s = .next u) :
    u.events.getLsbD k = true ∨ ∃ w m, s.port.cmd = some w ∧ decode w = some (.evclr m) ∧ m.getLsbD k = true := by
  rcases commandPart_cases hu with ⟨_, rfl⟩ | ⟨w, hw, ⟨_, rfl⟩ | ⟨i, hi, hx⟩⟩
  · exact .inl h
  · exact .inl h
  · obtain ⟨st, d, e, rfl, he⟩ := exec_effect hx
    rcases he.events_cases with hv | ⟨m, rfl, hv⟩
    · exact .inl (by rw [answer_events, hv]; exact h)
    · cases hm : m.getLsbD k with
      | true => exact .inr ⟨w, m, hw, hi, hm⟩
      | false =>
        have hk : (decide (k < 4)) = true := decide_eq_true (BitVec.lt_of_getLsbD h)
        exact .inl (by rw [answer_events, hv, BitVec.getLsbD_and, BitVec.getLsbD_not, h, hm, hk]; rfl)

end Events

/-! ### The obligations -/

/-- Settles O11: the command part and the tick step keep the invariant, and a reset period restores it. -/
theorem everyStepKeepsTheInvariant : Obligations.EveryStepKeepsTheInvariant := by
  intro s t h hst
  rcases step_cases hst with ⟨_, rfl⟩ | ⟨_, u, v, hu, hv, rfl⟩
  · exact (inv_initial _ _ _ h.params).after_nextPeriod
  · exact ((h.after_commandPart hu).after_tick hv).after_nextPeriod

/-- Settles O10: the reset state is the initial state of the reference parameters, which are legal. -/
theorem invariantHoldsAtReset : Obligations.InvariantHoldsAtReset := inv_initial _ _ _ reference_legal

/-- Settles O14: a command step leaves `CLK` alone and the one tick step of the period advances it. -/
theorem clockCountsEveryPeriod : Obligations.ClockCountsEveryPeriod := by
  refine ⟨fun s t h => ?_, fun i s t h => (exec_frame h).clk⟩
  rcases step_cases h with ⟨hr, rfl⟩ | ⟨hr, u, v, hu, hv, rfl⟩
  · simp [hr]
  · have hf := commandPart_frame hu
    obtain ⟨hconfig, hclk⟩ := tick_clk hv
    simp [hr, hconfig, hclk, hf.config, hf.clk]

/-- Settles O19: `SR[2]` bit by bit, the other views by their definitions. -/
theorem statusRegistersZeroToSeven : Obligations.StatusRegistersZeroToSeven := by
  intro s
  refine ⟨rfl, ?state, flagsView_getLsbD s, ?events, ?irqen, ?err, rfl, ?txsym⟩
  case state =>
    change (modeCode s.mode).toNat = _
    cases s.mode <;> rfl
  case events => exact BitVec.toNat_setWidth_of_le (by decide)
  case irqen => exact BitVec.toNat_setWidth_of_le (by decide)
  case err => exact BitVec.toNat_setWidth_of_le (by decide)
  case txsym =>
    change BitVec.ofNat 32 (txsym s) = _
    unfold txsym
    cases s.mode <;> rfl

/-- Settles O20: the fields of `SR[8]` and `SR[9]` side by side, the other views by their definitions. -/
theorem statusRegistersEightToFifteen : Obligations.StatusRegistersEightToFifteen := by
  intro s
  refine ⟨readingView_toNat, rxaccView_toNat s, rfl, ?clklo, ?clkhi, ?t0lo, ?t0hi, ?tickcnt⟩
  case clklo => exact BitVec.toNat_ofNat ..
  case clkhi => exact BitVec.toNat_setWidth_of_le (by decide)
  case t0lo => exact BitVec.toNat_ofNat ..
  case t0hi => exact (BitVec.toNat_setWidth_of_le (by decide)).trans (BitVec.toNat_ofNat ..)
  case tickcnt => exact BitVec.toNat_setWidth_of_le (by decide)

/-- Settles O34: a command that answers has one of the effects of `CommandEffect`, and each field is written
by the effects named beside it. -/
theorem commandsWriteOnlyTheirOwnState : Obligations.CommandsWriteOnlyTheirOwnState := by
  intro i s t h
  obtain ⟨config, clk, err, frame, out, port, future, draws⟩ := exec_frame h
  obtain ⟨st, d, e, rfl, he⟩ := exec_effect h
  refine ⟨he.cfg_written, he.txlen_written, fun hi a => ?otherCommands, fun a ha => ?otherCells,
    he.rxfifo_written, fun hc => ?events, he.irqen_written, he.clkhiLatch_written, he.t0_written,
    he.session_written, he.receiver_written, he.reading_written, config, clk, err, frame, out, port, future,
    draws⟩
  case otherCommands =>
    rcases he.txbuf_cases with hb | ⟨c, hc, _⟩
    · rw [answer_txbuf, hb]
    · exact absurd hc (hi c)
  case otherCells =>
    rcases he.txbuf_cases with hb | ⟨c, _, hb⟩
    · rw [answer_txbuf, hb]
    · rw [answer_txbuf, hb, memRead_memWrite, if_neg ha]
  case events =>
    rcases he.events_cases with hv | ⟨m, hm, _⟩
    · exact absurd hv hc
    · exact ⟨m, hm⟩

/-- Settles O55: only an `EVCLR` clears a bit in the command part, and the tick step clears none. -/
theorem eventsAreSticky : Obligations.EventsAreSticky := by
  intro s t k h hr hk
  rcases step_cases h with ⟨hr', _⟩ | ⟨_, u, v, hu, hv, rfl⟩
  · exact absurd (hr.symm.trans hr') (by decide)
  · rw [nextPeriod_events]
    exact (commandPart_sticky hk hu).imp_left (tick_sticky · hv)

end Sys2Proof
end

section
/-! The memory family (20_memory.md): a period is its command part, its tick step and the move to the next
inputs; what the parts leave alone gives the canonical form of the memories, the lock of a session and the
inputs of the next period. -/

namespace Sys2Proof

open Sys2Proof.Machine

/-! ### The parts of a period -/

section Parts

variable {s t u : State}

theorem step_of_rst_false (hr : s.port.rst = false) :
    step s = andThen (commandPart s) (fun t => andThen (tick t) (fun u => .next (nextPeriod u))) := by
  simp [step, hr]

theorem commandPart_of_decode {w : Word} {i : Instr} (hc : s.port.cmd = some w) (hd : decode w = some i) :
    commandPart s = exec i s := by
  simp [commandPart, fetch, hc, commandWord, hd]

theorem commandPart_of_illegal {w : Word} (hc : s.port.cmd = some w) (hd : decode w = none) :
    commandPart s = .next (Answered 0x10 0 s) := by
  simp only [commandPart, fetch, hc, commandWord, hd]
  rfl

theorem commandPart_of_noCommand (hc : s.port.cmd = none) : commandPart s = .next (noResponse s) := by
  simp [commandPart, fetch, hc]

/-- Whatever the period presents, its command part leaves one of the effects of a command, with some response
at the port. -/
theorem commandPart_effect (h : commandPart s = .next u) :
    ∃ i e b r, CommandEffect i s e ∧ u = { e with rspValid := b, rsp := r } := by
  rcases commandPart_cases h with ⟨_, rfl⟩ | ⟨w, _, ⟨_, rfl⟩ | ⟨i, _, hi⟩⟩
  · exact ⟨.nop, s, _, _, .same _ _, rfl⟩
  · exact ⟨.nop, s, _, _, .same _ _, rfl⟩
  · obtain ⟨st, d, e, rfl, he⟩ := exec_effect hi
    exact ⟨i, e, _, _, he, rfl⟩

/-- Beside `CLK` and the output a tick step writes nothing that the timers do not write. -/
theorem tick_frame (h : tick s = .next t) : TickFrame s { t with clk := s.clk, out := s.out } := by
  obtain ⟨o, _, rfl⟩ := tick_cases h
  exact { timers_frame (driveOut o s) with clk := rfl, out := rfl }

/-- A period ends with the move to the next inputs, which no part of it touched before. -/
theorem step_ends_with_nextPeriod (h : step s = .next t) :
    ∃ v, t = nextPeriod v ∧ v.future = s.future ∧ v.draws = s.draws := by
  rcases step_cases h with ⟨_, rfl⟩ | ⟨_, u, v, hu, hv, rfl⟩
  · exact ⟨resetBlock s, rfl, rfl, rfl⟩
  · have hc := commandPart_frame hu
    have ht := tick_frame hv
    exact ⟨v, rfl, ht.future.trans hc.future, ht.draws.trans hc.draws⟩

theorem nextPeriod_of_listed {p : InputPorts} {rest : List InputPorts} (h : s.future = p :: rest) :
    nextPeriod s = { s with port := p, future := rest, draws := s.draws + 1 } := by
  simp [nextPeriod, h]

theorem nextPeriod_of_unlisted (h : s.future = []) :
    nextPeriod s = { s with port := freePorts s.draws, draws := s.draws + 1 } := by
  simp [nextPeriod, h]

end Parts

/-! ### The memories in a period -/

section Memories

variable {s t u : State}

theorem memoriesCanonical_commandPart (h : MemoriesCanonical s) (hu : commandPart s = .next u) :
    MemoriesCanonical u := by
  obtain ⟨i, e, b, r, he, rfl⟩ := commandPart_effect hu
  refine ⟨?_, ?_⟩
  · rcases he.txbuf_cases with hb | ⟨c, _, hb⟩ <;> simp only [hb]
    · exact h.1
    · exact memWrite_wf h.1 _ _
  · simp only [he.frame.frame]
    exact h.2

theorem detectionTick_frameCells_cases (s : State) :
    (detectionTick s).frame = s.frame ∨ (detectionTick s).frame = (captureFrame s).frame := by
  unfold detectionTick
  split
  · exact .inl rfl
  · exact .inr (detect_frameCells _)

theorem transmitTimer_frameCells (s : State) : (transmitTimer s).frame = s.frame := by
  unfold transmitTimer
  split <;> rfl

/-- The only write of a tick step to `FRAME` is the capture of the frame at the port. -/
theorem timers_frameCells_cases (s : State) :
    (timers s).frame = s.frame ∨ (timers s).frame = (captureFrame s).frame := by
  unfold timers
  split
  · exact .inl rfl
  · exact .inl (transmitTimer_frameCells s)
  · unfold pollTimer
    split
    · exact detectionTick_frameCells_cases (setTickcnt 0 s)
    · exact .inl rfl

theorem memoriesCanonical_tick (h : MemoriesCanonical s) (ht : tick s = .next t) : MemoriesCanonical t := by
  have htxbuf : t.txbuf = s.txbuf := (tick_frame ht).txbuf
  refine ⟨htxbuf ▸ h.1, ?_⟩
  obtain ⟨o, _, rfl⟩ := tick_cases ht
  rcases timers_frameCells_cases (driveOut o s) with hf | hf <;> rw [advanceClk_frame, hf]
  · exact h.2
  · exact memCapture_wf h.2 (portFrame_length (driveOut o s))

theorem memoriesCanonical_nextPeriod (h : MemoriesCanonical s) : MemoriesCanonical (nextPeriod s) := by
  rwa [MemoriesCanonical, nextPeriod_txbuf, nextPeriod_frame]

end Memories

/-! ### A session locks the configuration and the text -/

/-- Every command that writes the configuration or the text asks for Idle (R250). -/
theorem Machine.CommandEffect.locked {i : Instr} {s e : State} (h : CommandEffect i s e) (hm : s.mode ≠ .idle) :
    e.cfg = s.cfg ∧ e.txlen = s.txlen ∧ e.txbuf = s.txbuf := by
  cases h with
  | setcfg _ hi => exact absurd hi hm
  | txput _ hi => exact absurd hi hm
  | txclr hi => exact absurd hi hm
  | _ => simp

/-! ### Reads of unwritten text -/

/-- A range whose first unwritten cell is `j` fails at `j`. -/
theorem memReadRange_of_unwritten {α : Type} {m : Memory α} {j n : Nat} (hj : j < n) (hnone : memRead m j = none)
    (hsome : ∀ k < j, (memRead m k).isSome) : memReadRange m 0 n = .error j := by
  cases hr : memReadRange m 0 n with
  | ok xs =>
    obtain ⟨hlen, hget⟩ := memReadRange_get hr
    have hx := hget j hj
    rw [Nat.zero_add, hnone, eq_comm, List.getElem?_eq_none_iff] at hx
    omega
  | error e =>
    obtain ⟨_, _, henone, hesome⟩ := memReadRange_error hr
    have hle : e ≤ j := Nat.le_of_not_lt fun hlt => by simpa [hnone] using hesome j (Nat.zero_le _) hlt
    have hge : j ≤ e := Nat.le_of_not_lt fun hlt => by simpa [henone] using hsome e hlt
    rw [Nat.le_antisymm hle hge]

/-! ### The queue -/

theorem push_of_room {c : Byte} {s : State} (h : s.rxfifo.length < s.config.rxfifoDepth) :
    push c s = { s with rxfifo := s.rxfifo ++ [c], events := s.events ||| 0b0001 } := by
  rw [push, if_pos h]
  rfl

theorem push_of_full {c : Byte} {s : State} (h : s.config.rxfifoDepth ≤ s.rxfifo.length) :
    push c s = { s with err := 0x15, events := s.events ||| 0b0010 } := by
  rw [push, if_neg (Nat.not_lt.2 h)]
  rfl

/-! ### What a period reads of its input port -/

section InputPort

variable {s : State} {p : InputPorts}

/-- `s` with other inputs in this period. -/
abbrev withInputs (p : InputPorts) (s : State) : State := { s with port := p }

theorem cfgWrite_withInputs (r : CfgReg) (v : CfgWord) (s : State) :
    cfgWrite r v (withInputs p s) = withInputs p (cfgWrite r v s) := by
  cases r <;> rfl

theorem sregOf_eq_flags {n : BitVec 4} (h : sregOf n = .flags) : n = 2 := by
  revert n
  decide

theorem statusRead_withInputs {r : SReg}
    (h : r = .flags → p.sinkRdy = s.port.sinkRdy ∧ p.inOk = s.port.inOk) :
    statusRead r (withInputs p s) = statusRead r s := by
  cases r with
  | flags =>
    obtain ⟨hs, hi⟩ := h rfl
    simp only [statusRead, flagsView, hs, hi]
    rfl
  | _ => rfl

theorem statusLatch_withInputs (r : SReg) (s : State) :
    statusLatch r (withInputs p s) = withInputs p (statusLatch r s) := by
  simp only [statusLatch, apply_ite (withInputs p)]

/-- A command reads no input but the two pins: `sink_rdy` in `TRANSMIT` and in the read of the flags, `in_ok`
in `LISTEN` and in the read of the flags. -/
theorem exec_withInputs {i : Instr}
    (hs : i = .transmit ∨ i = .getsr 2 → p.sinkRdy = s.port.sinkRdy)
    (hi : i = .listen ∨ i = .getsr 2 → p.inOk = s.port.inOk) :
    exec i (withInputs p s) = andThen (exec i s) (fun t => .next (withInputs p t)) := by
  cases i with
  | nop => rfl
  | setcfg r v =>
    simp only [exec, execSetcfg]
    cases cfgRegOf r with
    | none => rfl
    | some reg =>
      simp only [cfgWrite_withInputs]
      split_ifs <;> rfl
  | getcfg r =>
    simp only [exec, execGetcfg]
    cases cfgRegOf r <;> rfl
  | txput c =>
    simp only [exec, execTxput]
    split_ifs <;> rfl
  | txclr =>
    simp only [exec, execTxclr]
    split_ifs <;> rfl
  | transmit =>
    simp only [exec, execTransmit, hs (.inl rfl)]
    split_ifs
    · rfl
    · rfl
    · cases memReadRange s.txbuf 0 s.txlen with
      | error j => rfl
      | ok text =>
        dsimp only
        split_ifs <;> rfl
  | txstop =>
    simp only [exec, execTxstop]
    cases s.mode <;> rfl
  | listen =>
    simp only [exec, execListen, hi (.inl rfl)]
    split_ifs <;> rfl
  | rxstop =>
    simp only [exec, execRxstop]
    cases s.mode <;> rfl
  | rxget =>
    simp only [exec, execRxget]
    cases s.rxfifo <;> rfl
  | getsr n =>
    have hview : statusRead (sregOf n) (withInputs p s) = statusRead (sregOf n) s :=
      statusRead_withInputs fun hn => by
        obtain rfl := sregOf_eq_flags hn
        exact ⟨hs (.inr rfl), hi (.inr rfl)⟩
    simp only [exec, execGetsr, hview, statusLatch_withInputs]
    rfl
  | evclr m => rfl
  | irqen m => rfl

/-- The command part reads no input but the command word and, in the commands named, the two pins. -/
theorem commandPart_withInputs (hc : p.cmd = s.port.cmd)
    (hs : ∀ w i, s.port.cmd = some w → decode w = some i → i = .transmit ∨ i = .getsr 2 →
      p.sinkRdy = s.port.sinkRdy)
    (hi : p.inOk = s.port.inOk) :
    commandPart (withInputs p s) = andThen (commandPart s) (fun t => .next (withInputs p t)) := by
  cases hw : s.port.cmd with
  | none =>
    rw [commandPart_of_noCommand hw, commandPart_of_noCommand (s := withInputs p s) (hc.trans hw)]
    rfl
  | some w =>
    have hpw : (withInputs p s).port.cmd = some w := hc.trans hw
    cases hd : decode w with
    | none =>
      rw [commandPart_of_illegal hw hd, commandPart_of_illegal hpw hd]
      rfl
    | some i =>
      rw [commandPart_of_decode hw hd, commandPart_of_decode hpw hd]
      exact exec_withInputs (hs w i hw hd) (fun _ => hi)

/-- A tick step reads the frame and `in_ok` only where a detection tick is due. -/
theorem tick_withInputs
    (h : s.mode = .listening → detectionDue s = true → p.inOk = s.port.inOk ∧ p.frame = s.port.frame) :
    tick (withInputs p s) = andThen (tick s) (fun t => .next (withInputs p t)) := by
  refine (tick_withPorts (b := s.rspValid) (r := s.rsp) h).trans ?_
  cases ht : tick s with
  | next t =>
    have hvalid : t.rspValid = s.rspValid := (tick_frame ht).rspValid
    have hrsp : t.rsp = s.rsp := (tick_frame ht).rsp
    simp only [andThen, ← hvalid, ← hrsp]
  | fault f => rfl
  | refused r => rfl

theorem nextPeriod_withInputs (s : State) : nextPeriod (withInputs p s) = nextPeriod s := by
  unfold nextPeriod
  cases s.future <;> rfl

/-- What a whole period reads of its inputs: `rst` and the command word; `sink_rdy` in `TRANSMIT` and in the
read of the flags; `in_ok`; and the frame only where a detection tick is due after the command part. -/
theorem step_withInputs (hr : p.rst = s.port.rst) (hc : p.cmd = s.port.cmd)
    (hs : ∀ w i, s.port.cmd = some w → decode w = some i → i = .transmit ∨ i = .getsr 2 →
      p.sinkRdy = s.port.sinkRdy)
    (hi : p.inOk = s.port.inOk)
    (hf : ∀ u, s.port.rst = false → commandPart s = .next u → u.mode = .listening → detectionDue u = true →
      p.frame = s.port.frame) :
    step (withInputs p s) = step s := by
  cases hrst : s.port.rst with
  | true =>
    simp only [step, hr, hrst, if_true]
    exact congrArg _ (nextPeriod_withInputs (resetBlock s))
  | false =>
    rw [step_of_rst_false hrst, step_of_rst_false (s := withInputs p s) (hr.trans hrst),
      commandPart_withInputs hc hs hi]
    cases hu : commandPart s with
    | fault f => rfl
    | refused r => rfl
    | next u =>
      have hport := (commandPart_frame hu).port
      have htick := tick_withInputs (s := u) (p := p) fun hm hd =>
        ⟨hi.trans (by rw [hport]), (hf u hrst hu hm hd).trans (by rw [hport])⟩
      simp only [andThen, htick]
      cases tick u with
      | next v => simp only [nextPeriod_withInputs]
      | fault f => rfl
      | refused r => rfl

end InputPort

/-- A tick step that performs a detection tick stays in Listening and leaves the poll timer at 0. -/
theorem tick_of_detectionDue {s t : State} (hm : s.mode = .listening) (hd : detectionDue s = true)
    (h : tick s = .next t) : t.mode = .listening ∧ t.tickcnt = 0 := by
  obtain ⟨o, _, rfl⟩ := tick_cases h
  have htimers : timers (driveOut o s) = detectionTick (setTickcnt 0 (driveOut o s)) := by
    have hdue : detectionDue (driveOut o s) = true := hd
    simp [timers, hm, pollTimer, hdue]
  rw [htimers]
  refine ⟨?_, ?_⟩
  · rw [advanceClk_mode, (detectionTick_frame _).mode]
    exact hm
  · rw [advanceClk_tickcnt, detectionTick_tickcnt]
    rfl

/-! ### The obligations -/

/-- Settles O13: only `TXPUT` and the capture of a frame write a memory, each in canonical form; reset leaves
both empty. -/
theorem memoriesStayCanonical : Obligations.MemoriesStayCanonical := by
  intro s t h hst
  rcases step_cases hst with ⟨_, rfl⟩ | ⟨_, u, v, hu, hv, rfl⟩
  · exact memoriesCanonical_nextPeriod (s := resetBlock s) ⟨.nil, .nil⟩
  · exact memoriesCanonical_nextPeriod (memoriesCanonical_tick (memoriesCanonical_commandPart h hu) hv)

/-- Settles O54: the commands that write the configuration or the text are locked, and no tick step writes
them. -/
theorem sessionLocksConfigurationAndText : Obligations.SessionLocksConfigurationAndText := by
  intro s t h hm hr
  rcases step_cases h with ⟨hr', _⟩ | ⟨_, u, v, hu, hv, rfl⟩
  · exact absurd (hr.symm.trans hr') (by decide)
  · obtain ⟨i, e, b, r, he, rfl⟩ := commandPart_effect hu
    obtain ⟨hcfg, htxlen, htxbuf⟩ := he.locked hm
    have ht := tick_frame hv
    rw [nextPeriod_cfg, nextPeriod_txlen, nextPeriod_txbuf]
    exact ⟨ht.cfg.trans hcfg, ht.txlen.trans htxlen, fun a => congrArg (memRead · a) (ht.txbuf.trans htxbuf)⟩

/-- Settles O58: a period that held a detection tick ends in Listening with the poll timer at 0, and no other
period reads the frame. -/
theorem frameIsReadByDetectionOnly : Obligations.FrameIsReadByDetectionOnly := by
  intro s t f h hend
  rw [← h]
  refine step_withInputs (p := { s.port with frame := f }) rfl rfl (fun _ _ _ _ _ => rfl) rfl ?_
  intro u hrst hu hm hd
  exfalso
  rcases step_cases h with ⟨hrst', _⟩ | ⟨_, u', v, hu', hv, rfl⟩
  · exact absurd (hrst.symm.trans hrst') (by decide)
  · obtain rfl : u = u' := by simpa [hu] using hu'
    obtain ⟨hmode, htickcnt⟩ := tick_of_detectionDue hm hd hv
    rw [nextPeriod_mode, nextPeriod_tickcnt] at hend
    exact hend.elim (absurd hmode) (absurd htickcnt)

/-- Settles O7: the command part is the decoded command, or the answer `IllegalCommand`. -/
theorem stepRunsTheDecodedCommand : Obligations.StepRunsTheDecodedCommand := by
  refine ⟨fun s w i hr hc hd => ?_, fun s w hr hc hd => ?_, fun s hr => step_of_rst_false hr⟩
  · rw [step_of_rst_false hr, commandPart_of_decode hc hd]
  · rw [step_of_rst_false hr, commandPart_of_illegal hc hd]
    rfl

/-- Settles O28: each stop is the branch of its operation that meets the unwritten or missing cell. -/
theorem unwrittenTextStopsTheModel : Obligations.UnwrittenTextStopsTheModel := by
  refine ⟨fun s j hm hs hj hnone hsome => ?transmit, fun s hm hlt hnone => ?tick, fun s c hm hlt => ?txput⟩
  case transmit => simp [exec, execTransmit, hm, hs, memReadRange_of_unwritten hj hnone hsome]
  case tick =>
    apply tick_of_error
    rcases toneOutTransmitting_cases s with ⟨hle, _⟩ | ⟨_, ⟨_, ho⟩ | ⟨b, hb, _⟩⟩
    · omega
    · simp [toneOut, hm, ho]
    · simp [textBit, hnone] at hb
  case txput =>
    simp [exec, execTxput, hm, hlt, Nat.ne_of_gt hlt]

/-- Settles O48: the two branches of `push`, by the room in the queue. -/
theorem pushQueuesOrOverflows : Obligations.PushQueuesOrOverflows :=
  fun _ _ => ⟨push_of_room, push_of_full⟩

/-- Settles O59: every period ends with the move to the next inputs, and no part before it touches the list
or the counter. -/
theorem periodEndBringsTheNextInputs : Obligations.PeriodEndBringsTheNextInputs := by
  refine ⟨fun s p rest => nextPeriod_of_listed, fun s h => ⟨_, rfl, rfl, nextPeriod_of_unlisted h⟩, ?_⟩
  intro s t hst
  obtain ⟨v, rfl, hfuture, hdraws⟩ := step_ends_with_nextPeriod hst
  refine ⟨by rw [nextPeriod_draws, hdraws], fun p rest h => ?listed, fun h => ?unlisted⟩
  case listed =>
    rw [nextPeriod_of_listed (hfuture.trans h)]
    exact ⟨rfl, rfl⟩
  case unlisted =>
    have hv := hfuture.trans h
    rw [nextPeriod_of_unlisted hv]
    exact ⟨rfl, rfl, hv⟩

end Sys2Proof
end

section
/-! The encoding family (30_encoding.md): `decode` and `encode` are inverse to each other on the well-formed
commands; a word of a row of R84 is the word of a command of that row, and the other way round, so the rows
split the words by their `op`. -/

namespace Sys2Proof

open Sys2Proof.Machine

/-! ### Decoding a word that was encoded -/

/-- Each command's word goes to its own arm of `decode`, whose format check its fields pass. -/
theorem decode_encode {i : Instr} (h : i.wellFormed = true) : decode (encode i) = some i := by
  cases i with
  | nop => rfl
  | setcfg r v => simpa [decode, encode, decodeRI, Instr.wellFormed] using h
  | getcfg r => simpa [decode, encode, decodeR3, Instr.wellFormed] using h
  | txput c => simp [decode, encode, decodeI8]
  | txclr => rfl
  | transmit => rfl
  | txstop => rfl
  | listen => rfl
  | rxstop => rfl
  | rxget => rfl
  | getsr n => simp [decode, encode, decodeR4]
  | evclr m => simp [decode, encode, decodeI4]
  | irqen m => simp [decode, encode, decodeI4]

/-! ### Encoding the command a word decodes to -/

section Formats

variable {w : Word} {n : Nat} {i j : Instr} (hop : (opField w).toNat = n)

include hop

theorem encode_of_decodeN (he : encode i = fieldsWord (BitVec.ofNat 4 n) 0 0) (hwf : i.wellFormed = true)
    (h : decodeN w i = some j) : encode j = w ∧ j.wellFormed = true := by
  obtain ⟨⟨hr, himm⟩, rfl⟩ := decodeN_eq.1 h
  exact ⟨he.trans (fieldsWord_eq.2 ⟨opField_eq hop, hr, himm⟩), hwf⟩

theorem encode_of_decodeI4 {f : BitVec 4 → Instr}
    (he : ∀ m, encode (f m) = fieldsWord (BitVec.ofNat 4 n) 0 (0#20 ++ m)) (hwf : ∀ m, (f m).wellFormed = true)
    (h : decodeI4 w f = some j) : encode j = w ∧ j.wellFormed = true := by
  obtain ⟨⟨hr, himm⟩, rfl⟩ := decodeI4_eq.1 h
  exact ⟨(he _).trans (fieldsWord_eq.2 ⟨opField_eq hop, hr, (append_low4 himm).symm⟩), hwf _⟩

end Formats

theorem encode_of_decode {w : Word} {i : Instr} (h : decode w = some i) :
    encode i = w ∧ i.wellFormed = true := by
  unfold decode at h
  split at h
  case h_1 hop => exact encode_of_decodeN hop rfl rfl h
  case h_2 hop =>
    obtain ⟨hr, rfl⟩ := decodeRI_eq.1 h
    exact ⟨fieldsWord_eq.2 ⟨opField_eq hop, rfl, rfl⟩, hr⟩
  case h_3 hop =>
    obtain ⟨⟨hr, himm⟩, rfl⟩ := decodeR3_eq.1 h
    exact ⟨fieldsWord_eq.2 ⟨opField_eq hop, rfl, himm⟩, hr⟩
  case h_4 hop =>
    obtain ⟨⟨hr, himm⟩, rfl⟩ := decodeI8_eq.1 h
    exact ⟨fieldsWord_eq.2 ⟨opField_eq hop, hr, (append_low8 himm).symm⟩, rfl⟩
  case h_5 hop => exact encode_of_decodeN hop rfl rfl h
  case h_6 hop => exact encode_of_decodeN hop rfl rfl h
  case h_7 hop => exact encode_of_decodeN hop rfl rfl h
  case h_8 hop => exact encode_of_decodeN hop rfl rfl h
  case h_9 hop => exact encode_of_decodeN hop rfl rfl h
  case h_10 hop => exact encode_of_decodeN hop rfl rfl h
  case h_11 hop =>
    obtain ⟨himm, rfl⟩ := decodeR4_eq.1 h
    exact ⟨fieldsWord_eq.2 ⟨opField_eq hop, rfl, himm⟩, rfl⟩
  case h_12 hop => exact encode_of_decodeI4 hop (fun _ => rfl) (fun _ => rfl) h
  case h_13 hop => exact encode_of_decodeI4 hop (fun _ => rfl) (fun _ => rfl) h
  case h_14 => cases h

/-! ### The rows of R84 -/

/-- A row fixes the whole `op` of its words. -/
theorem opField_of_matches {row : OpcodeRow} {w : Word} (hrow : row ∈ opcodeRows)
    (h : w &&& row.mask = row.value) : opField w = opField row.value := by
  have hmask : ∀ q ∈ opcodeRows, opField q.mask = BitVec.allOnes 4 := by decide
  have hop := (and_eq_iff_fields.1 h).1
  rwa [hmask row hrow, BitVec.and_allOnes] at hop

theorem rows_op_injective {p q : OpcodeRow} (hp : p ∈ opcodeRows) (hq : q ∈ opcodeRows)
    (h : opField p.value = opField q.value) : p = q :=
  List.inj_on_of_nodup_map (f := fun row : OpcodeRow => opField row.value) (by decide) hp hq h

theorem rows_mnemonic_injective {p q : OpcodeRow} (hp : p ∈ opcodeRows) (hq : q ∈ opcodeRows)
    (h : p.mnemonic = q.mnemonic) : p = q :=
  List.inj_on_of_nodup_map (f := OpcodeRow.mnemonic) (by decide) hp hq h

/-- A word is a word of at most one row. -/
theorem row_unique_of_matches {p q : OpcodeRow} {w : Word} (hp : p ∈ opcodeRows) (hq : q ∈ opcodeRows)
    (hwp : w &&& p.mask = p.value) (hwq : w &&& q.mask = q.value) : p = q :=
  rows_op_injective hp hq ((opField_of_matches hp hwp).symm.trans (opField_of_matches hq hwq))

theorem encode_matches_row (i : Instr) : Laws.EncodeMatchesRow.Statement i := by
  cases i with
  | nop => exact Laws.EncodeMatchesRow.nop
  | setcfg r v => exact Laws.EncodeMatchesRow.setcfg r v
  | getcfg r => exact Laws.EncodeMatchesRow.getcfg r
  | txput c => exact Laws.EncodeMatchesRow.txput c
  | txclr => exact Laws.EncodeMatchesRow.txclr
  | transmit => exact Laws.EncodeMatchesRow.transmit
  | txstop => exact Laws.EncodeMatchesRow.txstop
  | listen => exact Laws.EncodeMatchesRow.listen
  | rxstop => exact Laws.EncodeMatchesRow.rxstop
  | rxget => exact Laws.EncodeMatchesRow.rxget
  | getsr n => exact Laws.EncodeMatchesRow.getsr n
  | evclr m => exact Laws.EncodeMatchesRow.evclr m
  | irqen m => exact Laws.EncodeMatchesRow.irqen m

/-- A word that decodes is a word of the row of its command. -/
theorem exists_row_of_decode {w : Word} {i : Instr} (h : decode w = some i) :
    ∃ row ∈ opcodeRows, row.mnemonic = i.mnemonic ∧ w &&& row.mask = row.value := by
  obtain ⟨rfl, hwf⟩ := encode_of_decode h
  obtain ⟨row, hrow, hname, hholds⟩ := encode_matches_row i hwf
  exact ⟨row, hrow, hname, by simpa [OpcodeRow.holds] using hholds⟩

/-- `(w AND mask) = match` for a mask and a match given by their fields. -/
theorem fields_of_matches {w mask value : Word} (rMask : BitVec 4) (immMask : BitVec 24) (op : BitVec 4)
    (h : w &&& mask = value) (hmask : mask = fieldsWord (BitVec.allOnes 4) rMask immMask)
    (hvalue : value = fieldsWord op 0 0) :
    opField w = op ∧ rField w &&& rMask = 0 ∧ immField w &&& immMask = 0 := by
  subst hmask hvalue
  simpa only [opField_fieldsWord, rField_fieldsWord, immField_fieldsWord, BitVec.and_allOnes]
    using and_eq_iff_fields.1 h

/-- A row that fixes every bit has one word. -/
theorem eq_of_matches_allOnes {w value : Word} (h : w &&& 0xFFFFFFFF = value) : value = w :=
  h.symm.trans BitVec.and_allOnes

/-- A row of format `I4` leaves the mask free. -/
theorem exists_mask_of_matches {w value : Word} (op : BitVec 4) (h : w &&& 0xFFFFFFF0 = value)
    (hvalue : value = fieldsWord op 0 0) : ∃ m : BitVec 4, fieldsWord op 0 (0#20 ++ m) = w := by
  obtain ⟨hop, hr, himm⟩ := fields_of_matches (BitVec.allOnes 4) 0xFFFFF0 op h rfl hvalue
  rw [BitVec.and_allOnes] at hr
  exact ⟨_, fieldsWord_eq.2 ⟨hop, hr, (append_low4 ((high20_iff_and _).2 himm)).symm⟩⟩

/-- Every word of a row is the word of a well-formed command of that row: the bits that the row leaves free are
the operands. -/
theorem exists_command_of_matches : ∀ row ∈ opcodeRows, ∀ w : Word, w &&& row.mask = row.value →
    ∃ i : Instr, i.wellFormed = true ∧ i.mnemonic = row.mnemonic ∧ encode i = w := by
  simp only [opcodeRows, List.forall_mem_cons]
  refine ⟨fun w h => ?nop, fun w h => ?setcfg, fun w h => ?getcfg, fun w h => ?txput, fun w h => ?txclr,
    fun w h => ?transmit, fun w h => ?txstop, fun w h => ?listen, fun w h => ?rxstop, fun w h => ?rxget,
    fun w h => ?getsr, fun w h => ?evclr, fun w h => ?irqen, by simp⟩
  case nop => exact ⟨.nop, rfl, rfl, eq_of_matches_allOnes h⟩
  case setcfg =>
    obtain ⟨hop, hr, _⟩ := fields_of_matches 8 0 0x1 h rfl rfl
    exact ⟨.setcfg (rField w) (immField w), (cfgNumberOk_iff_and _).2 hr, rfl, fieldsWord_eq.2 ⟨hop, rfl, rfl⟩⟩
  case getcfg =>
    obtain ⟨hop, hr, himm⟩ := fields_of_matches 8 (BitVec.allOnes 24) 0x2 h rfl rfl
    rw [BitVec.and_allOnes] at himm
    exact ⟨.getcfg (rField w), (cfgNumberOk_iff_and _).2 hr, rfl, fieldsWord_eq.2 ⟨hop, rfl, himm⟩⟩
  case txput =>
    obtain ⟨hop, hr, himm⟩ := fields_of_matches (BitVec.allOnes 4) 0xFFFF00 0x3 h rfl rfl
    rw [BitVec.and_allOnes] at hr
    exact ⟨.txput ((immField w).extractLsb' 0 8), rfl, rfl,
      fieldsWord_eq.2 ⟨hop, hr, (append_low8 ((high16_iff_and _).2 himm)).symm⟩⟩
  case txclr => exact ⟨.txclr, rfl, rfl, eq_of_matches_allOnes h⟩
  case transmit => exact ⟨.transmit, rfl, rfl, eq_of_matches_allOnes h⟩
  case txstop => exact ⟨.txstop, rfl, rfl, eq_of_matches_allOnes h⟩
  case listen => exact ⟨.listen, rfl, rfl, eq_of_matches_allOnes h⟩
  case rxstop => exact ⟨.rxstop, rfl, rfl, eq_of_matches_allOnes h⟩
  case rxget => exact ⟨.rxget, rfl, rfl, eq_of_matches_allOnes h⟩
  case getsr =>
    obtain ⟨hop, _, himm⟩ := fields_of_matches 0 (BitVec.allOnes 24) 0xA h rfl rfl
    rw [BitVec.and_allOnes] at himm
    exact ⟨.getsr (rField w), rfl, rfl, fieldsWord_eq.2 ⟨hop, rfl, himm⟩⟩
  case evclr =>
    obtain ⟨m, hm⟩ := exists_mask_of_matches 0xB h rfl
    exact ⟨.evclr m, rfl, rfl, hm⟩
  case irqen =>
    obtain ⟨m, hm⟩ := exists_mask_of_matches 0xC h rfl
    exact ⟨.irqen m, rfl, rfl, hm⟩

/-- The decoder against the opcode map, which it does not read. -/
theorem matches_iff_decode {row : OpcodeRow} (hrow : row ∈ opcodeRows) (w : Word) :
    w &&& row.mask = row.value ↔ ∃ i, decode w = some i ∧ i.mnemonic = row.mnemonic := by
  constructor
  · intro h
    obtain ⟨i, hwf, hname, rfl⟩ := exists_command_of_matches row hrow w h
    exact ⟨i, decode_encode hwf, hname⟩
  · rintro ⟨i, hd, hname⟩
    obtain ⟨q, hq, hqname, hmatches⟩ := exists_row_of_decode hd
    rwa [rows_mnemonic_injective hrow hq (hname.symm.trans hqname.symm)]

/-! ### Words of no command -/

/-- `op` values `0xD` to `0xF` have no arm in the decoder (R87). -/
theorem decode_of_reserved_op {w : Word} (h : 0xD ≤ (w >>> 28).toNat) : decode w = none := by
  have hop : (opField w).toNat = 0xD ∨ (opField w).toNat = 0xE ∨ (opField w).toNat = 0xF := by
    rw [opField, BitVec.extractLsb'_toNat]
    rw [BitVec.toNat_ushiftRight] at h
    omega
  rcases hop with hop | hop | hop <;> simp [decode, hop]

theorem cfgNumberOk_eq_not_bit3 : ∀ r : BitVec 4, cfgNumberOk r = !r.getLsbD 3 := by decide

theorem cfgNumberOk_rField (w : Word) : cfgNumberOk (rField w) = !w.getLsbD 27 := by
  simp [cfgNumberOk_eq_not_bit3, rField]

/-- Bit 27 of a `SETCFG` or `GETCFG` word is reserved (R82, R90). -/
theorem decode_of_cfgNumber_above_7 {w : Word} (hop : w >>> 28 = 1 ∨ w >>> 28 = 2) (h : w.getLsbD 27 = true) :
    decode w = none := by
  have hr : cfgNumberOk (rField w) = false := by rw [cfgNumberOk_rField, h, Bool.not_true]
  rcases hop with hop | hop
  · have hop : opField w = 1 := shift28_eq (v := 0x10000000).1 hop
    simp [decode, hop, decodeRI, hr]
  · have hop : opField w = 2 := shift28_eq (v := 0x20000000).1 hop
    simp [decode, hop, decodeR3, hr]

theorem cfgRegOf_above_7 : ∀ r : BitVec 4, 8 ≤ r.toNat → cfgRegOf r = none := by decide

/-! ### The obligations -/

/-- Settles O1: the operands of a well-formed command come back from the fields of its word. -/
theorem decodeOfEncodeIsTheCommand : Obligations.DecodeOfEncodeIsTheCommand :=
  fun _ => decode_encode

/-- Settles O2: each format check of `decode` forces the reserved bits of the word. -/
theorem encodeOfDecodeIsTheWord : Obligations.EncodeOfDecodeIsTheWord :=
  fun _ _ => encode_of_decode

/-- Settles O3: the words of a row are those of its commands, and two rows differ in `op`. -/
theorem commandRowsAreMaskAndMatch : Obligations.CommandRowsAreMaskAndMatch := by
  have hnodup : opcodeRows.Nodup := by decide
  refine ⟨fun row hrow w => matches_iff_decode hrow w, hnodup.imp_of_mem ?_⟩
  rintro p q hp hq hne w ⟨hwp, hwq⟩
  exact hne (row_unique_of_matches hp hq hwp hwq)

/-- Settles O4: a word that decodes has the row of its command and no other; one that does not has none. -/
theorem everyWordIsOneCommandOrIllegal : Obligations.EveryWordIsOneCommandOrIllegal := by
  intro w
  cases hd : decode w with
  | some i =>
    obtain ⟨row, hrow, hname, hw⟩ := exists_row_of_decode hd
    exact .inl ⟨row, hrow, hw, fun q hq hwq => row_unique_of_matches hq hrow hwq hw, i, rfl, hname.symm,
      fun _ hc => commandPart_of_decode hc hd⟩
  | none =>
    refine .inr ⟨fun q hq hwq => ?_, rfl, fun _ hc => commandPart_of_illegal hc hd⟩
    obtain ⟨i, hi, _⟩ := (matches_iff_decode hq w).1 hwq
    simp [hd] at hi

/-- Settles O5: the decoder has no arm for such an `op` and refuses such a register number, which names no
register in `SETCFG` and `GETCFG` either. -/
theorem reservedEncodingsAreIllegal : Obligations.ReservedEncodingsAreIllegal := by
  refine ⟨fun w s hop hc => ?op, fun w s hop hbit hc => ?number, fun n => ?status, fun r hr v s => ?term⟩
  case op =>
    have hd := decode_of_reserved_op hop
    exact ⟨hd, commandPart_of_illegal hc hd⟩
  case number =>
    have hd := decode_of_cfgNumber_above_7 hop hbit
    exact ⟨hd, commandPart_of_illegal hc hd⟩
  case status =>
    have hword : ∀ n : BitVec 4, 0xA0000000 ||| (n.zeroExtend 32 <<< 24) = encode (.getsr n) := by decide
    rw [hword]
    exact decode_encode rfl
  case term =>
    simp only [exec, execSetcfg, execGetcfg, cfgRegOf_above_7 r hr]
    exact ⟨rfl, rfl⟩

/-- Settles O6: the decoder run on the eleven words. -/
theorem wordsOfTheSpecDecode : Obligations.WordsOfTheSpecDecode := by
  unfold Obligations.WordsOfTheSpecDecode
  decide

/-- Settles O8: without a word the command part only leaves the response port unanswered. -/
theorem periodWithoutCommandOnlyTicks : Obligations.PeriodWithoutCommandOnlyTicks := by
  intro s hr hc
  refine ⟨Config.freeRspStatus s.draws, Config.freeRspData s.draws, ?_⟩
  rw [step_of_rst_false hr, commandPart_of_noCommand hc]
  rfl

end Sys2Proof
end

section
/-! The codec family (40_bitcodec.md). Both directions of the codec go by groups of 8 bits: a stream shorter than
a group decodes to nothing, and a group in front of a stream is one character. The receiver's accumulator holds the
value of an unfinished group, so it follows `decode` group by group. -/

namespace Sys2Proof

open Sys2Proof.Machine

/-! ### The value of a group of bits -/

theorem foldl_bitsValue (bits : List Bool) (n : Nat) :
    bits.foldl (fun n b => 2 * n + bitNat b) n = n * 2 ^ bits.length + bitsValue bits := by
  induction bits generalizing n with
  | nil => simp [bitsValue]
  | cons b bits ih =>
    simp only [bitsValue, List.foldl_cons, List.length_cons, ih (2 * n + bitNat b), ih (2 * 0 + bitNat b)]
    ring

theorem bitsValue_cons (b : Bool) (bits : List Bool) :
    bitsValue (b :: bits) = bitNat b * 2 ^ bits.length + bitsValue bits := by
  simp [bitsValue, foldl_bitsValue bits (bitNat b)]

theorem bitsValue_concat (bits : List Bool) (b : Bool) : bitsValue (bits ++ [b]) = 2 * bitsValue bits + bitNat b := by
  simp [bitsValue]

theorem bitNat_le_one (b : Bool) : bitNat b ≤ 1 := by cases b <;> decide

theorem bitsValue_lt (bits : List Bool) : bitsValue bits < 2 ^ bits.length := by
  induction bits with
  | nil => decide
  | cons b bits ih =>
    have hb : bitNat b * 2 ^ bits.length ≤ 2 ^ bits.length := mul_le_of_le_one_left' (bitNat_le_one b)
    rw [bitsValue_cons, List.length_cons, pow_succ]
    omega

theorem bitsValue_eq_sum (bits : List Bool) :
    bitsValue bits =
      ((List.range bits.length).map fun n => bitNat (bits.getD n false) * 2 ^ (bits.length - 1 - n)).sum := by
  induction bits with
  | nil => rfl
  | cons b bits ih =>
    rw [bitsValue_cons, ih]
    simp [List.range_succ_eq_map, Function.comp_def, Nat.sub_sub, Nat.add_comm 1]

/-! ### Decoding by groups -/

theorem decodeBits_of_short {bits : List Bool} (h : bits.length < 8) : decodeBits bits = [] := by
  unfold decodeBits
  split
  · simp only [List.length_cons] at h
    omega
  · rfl

theorem decodeBits_of_group {g rest : List Bool} (h : g.length = 8) :
    decodeBits (g ++ rest) = BitVec.ofNat 8 (bitsValue g) :: decodeBits rest := by
  match g, h with
  | [_, _, _, _, _, _, _, _], _ => rfl

/-- Induction on a bit stream the way `decode` reads it. -/
theorem groupInduction {motive : List Bool → Prop} (short : ∀ bits, bits.length < 8 → motive bits)
    (group : ∀ g rest, g.length = 8 → motive rest → motive (g ++ rest)) (bits : List Bool) :
    motive bits := by
  by_cases h : bits.length < 8
  · exact short bits h
  · rw [← bits.take_append_drop 8]
    exact group _ _ (by rw [List.length_take]; omega) (groupInduction short group (bits.drop 8))
termination_by bits.length
decreasing_by
  rw [List.length_drop]
  omega

theorem length_decodeBits (bits : List Bool) : (decodeBits bits).length = bits.length / 8 := by
  induction bits using groupInduction with
  | short bits h => simp [decodeBits_of_short h, Nat.div_eq_of_lt h]
  | group g rest hg ih => simp [decodeBits_of_group hg, ih, hg]

theorem toNat_groupChar {g : List Bool} (h : g.length = 8) :
    (BitVec.ofNat 8 (bitsValue g)).toNat = bitsValue g := by
  rw [BitVec.toNat_ofNat, Nat.mod_eq_of_lt]
  simpa [h] using bitsValue_lt g

theorem decodeBits_getElem? {bits : List Bool} {j : Nat} {c : Byte} (hc : (decodeBits bits)[j]? = some c) :
    c.toNat = ((List.range 8).map fun n => bitNat (bits.getD (8 * j + n) false) * 2 ^ (7 - n)).sum := by
  induction bits using groupInduction generalizing j with
  | short bits h => simp [decodeBits_of_short h] at hc
  | group g rest hg ih =>
    rw [decodeBits_of_group hg] at hc
    cases j with
    | zero =>
      obtain rfl : BitVec.ofNat 8 (bitsValue g) = c := by simpa using hc
      rw [toNat_groupChar hg, bitsValue_eq_sum, hg]
      refine congrArg List.sum (List.map_congr_left fun n hn => ?_)
      rw [List.mem_range] at hn
      rw [List.getD_append _ _ _ _ (by omega), Nat.mul_zero, Nat.zero_add]
    | succ j =>
      rw [ih (by simpa using hc)]
      refine congrArg List.sum (List.map_congr_left fun n _ => ?_)
      rw [List.getD_append_right _ _ _ _ (by omega), hg, show 8 * (j + 1) + n - 8 = 8 * j + n by omega]

/-! ### Encoding -/

@[simp] theorem length_charBits (c : Byte) : (charBits c).length = 8 := rfl

theorem charBits_getElem? (c : Byte) {n : Nat} (h : n < 8) :
    (charBits c)[n]? = some (decide (c.toNat / 2 ^ (7 - n) % 2 = 1)) := by
  simp [charBits, charBit, h, BitVec.getLsbD, Nat.testBit_eq_decide_div_mod_eq]

theorem encodeText_of_ascii {text : List Byte} (h : ∀ c ∈ text, c.toNat < 0x80) :
    encodeText text = .ok (text.flatMap charBits) :=
  if_pos (List.all_eq_true.2 fun c hc => decide_eq_true (h c hc))

theorem encodeText_of_nonAscii {text : List Byte} {c : Byte} (hc : c ∈ text) (h : 0x80 ≤ c.toNat) :
    encodeText text = .error .encodingError := by
  refine if_neg fun hall => ?_
  have := of_decide_eq_true (List.all_eq_true.1 hall c hc)
  omega

theorem length_flatMap_charBits (text : List Byte) : (text.flatMap charBits).length = 8 * text.length := by
  simp [List.length_flatMap, Nat.mul_comm]

theorem flatMap_charBits_getElem? {text : List Byte} {i : Nat} {c : Byte} (hc : text[i / 8]? = some c) :
    (text.flatMap charBits)[i]? = some (decide (c.toNat / 2 ^ (7 - i % 8) % 2 = 1)) := by
  induction text generalizing i with
  | nil => simp at hc
  | cons d text ih =>
    rw [List.flatMap_cons]
    by_cases hi : i < 8
    · obtain rfl : d = c := by simpa [Nat.div_eq_of_lt hi] using hc
      rw [List.getElem?_append_left hi, charBits_getElem? d hi, Nat.mod_eq_of_lt hi]
    · have hdiv : i / 8 = (i - 8) / 8 + 1 := by omega
      rw [hdiv, List.getElem?_cons_succ] at hc
      rw [List.getElem?_append_right (Nat.not_lt.1 hi), length_charBits, ih hc, show (i - 8) % 8 = i % 8 by omega]

theorem ofNat_bitsValue_charBits : ∀ c : Byte, BitVec.ofNat 8 (bitsValue (charBits c)) = c := by decide

theorem decodeBits_flatMap_charBits (text : List Byte) : decodeBits (text.flatMap charBits) = text := by
  induction text with
  | nil => rfl
  | cons c text ih => rw [List.flatMap_cons, decodeBits_of_group (length_charBits c), ofNat_bitsValue_charBits, ih]

/-! ### The accumulator of the receiver -/

theorem shiftBitIn_eq : ∀ (v : Byte) (b : Bool),
    v <<< 1 ||| (BitVec.ofBool b).zeroExtend 8 = 2 * v + BitVec.ofNat 8 (bitNat b) := by decide

theorem ofNat_bitsValue_concat (bits : List Bool) (b : Bool) :
    BitVec.ofNat 8 (bitsValue (bits ++ [b])) = 2 * BitVec.ofNat 8 (bitsValue bits) + BitVec.ofNat 8 (bitNat b) := by
  rw [bitsValue_concat, BitVec.ofNat_add, BitVec.ofNat_mul]
  rfl

theorem accumulate_of_ne_seven {b : Bool} {s : State} (h : s.rxcnt ≠ 7) :
    accumulate b s = setAccumulator (2 * s.rxshift + BitVec.ofNat 8 (bitNat b)) (s.rxcnt + 1) s := by
  have hbit : accumulateBit s.rxshift s.rxcnt b = ⟨_, _, none⟩ := if_neg h
  rw [accumulate, hbit, shiftBitIn_eq]

theorem accumulate_of_eq_seven {b : Bool} {s : State} (h : s.rxcnt = 7) :
    accumulate b s = push (2 * s.rxshift + BitVec.ofNat 8 (bitNat b)) (setAccumulator 0 0 s) := by
  have hbit : accumulateBit s.rxshift s.rxcnt b = ⟨0, 0, some _⟩ := if_pos h
  rw [accumulate, hbit, shiftBitIn_eq]

theorem setAccumulator_of_empty {s : State} (hcnt : s.rxcnt = 0) (hshift : s.rxshift = 0) :
    setAccumulator 0 0 s = s := by
  rw [setAccumulator, ← hcnt, ← hshift]

theorem accumulateAll_append (bits more : List Bool) (s : State) :
    accumulateAll (bits ++ more) s = accumulateAll more (accumulateAll bits s) :=
  List.foldl_append

section Accumulator

variable {s : State} (hcnt : s.rxcnt = 0) (hshift : s.rxshift = 0)

include hcnt hshift

/-- An unfinished group stands in the accumulator: its value in `RXSHIFT`, its length in `RXCNT`. -/
theorem accumulateAll_of_short {bits : List Bool} (h : bits.length < 8) :
    accumulateAll bits s = setAccumulator (BitVec.ofNat 8 (bitsValue bits)) (BitVec.ofNat 3 bits.length) s := by
  induction bits using List.reverseRecOn with
  | nil => exact (setAccumulator_of_empty hcnt hshift).symm
  | append_singleton bits b ih =>
    rw [List.length_append, List.length_singleton] at h
    have hne : BitVec.ofNat 3 bits.length ≠ 7 := by bv_omega
    rw [accumulateAll_append, ih (by omega)]
    refine (accumulate_of_ne_seven hne).trans ?_
    rw [setAccumulator_rxshift, setAccumulator_rxcnt, ← ofNat_bitsValue_concat, List.length_append,
      List.length_singleton, BitVec.ofNat_add]
    rfl

/-- A full group is pushed as the character `decode` makes of it, and the accumulator is empty again. -/
theorem accumulateAll_of_group {g : List Bool} (h : g.length = 8) :
    accumulateAll g s = push (BitVec.ofNat 8 (bitsValue g)) s := by
  obtain ⟨bits, b, rfl⟩ := List.eq_nil_or_concat' g |>.resolve_left (by rintro rfl; simp at h)
  have hlen : bits.length = 7 := by simpa using h
  rw [accumulateAll_append, accumulateAll_of_short hcnt hshift (by omega), hlen]
  refine (accumulate_of_eq_seven (setAccumulator_rxcnt ..)).trans ?_
  rw [setAccumulator_rxshift, ← ofNat_bitsValue_concat]
  exact congrArg (push _) (setAccumulator_of_empty hcnt hshift)

end Accumulator

/-- A push beyond the room of the queue is lost. -/
theorem push_rxfifo {s : State} (h : s.rxfifo.length ≤ s.config.rxfifoDepth) (c : Byte) :
    (push c s).rxfifo = (s.rxfifo ++ [c]).take s.config.rxfifoDepth := by
  rcases Nat.lt_or_eq_of_le h with hlt | heq
  · rw [push_of_room hlt, List.take_of_length_le (by simpa using hlt)]
  · rw [push_of_full heq.ge, ← heq, List.take_left]

theorem take_take_append {α : Type} (xs ys : List α) (n : Nat) : (xs.take n ++ ys).take n = (xs ++ ys).take n := by
  have hroom : n - min n xs.length = n - xs.length := by omega
  rw [List.take_append, List.take_append, List.take_take, Nat.min_self, List.length_take, hroom]

/-! ### The words of a row -/

/-- A word with the `op` of a row decodes to a command of that row or not at all. -/
theorem noOtherWordOfItsOp {mnemonic : String} {mask value : Word} (hrow : ⟨mnemonic, mask, value⟩ ∈ opcodeRows) :
    NoOtherWordOfItsOp mask value := by
  intro w hop hne
  by_contra hd
  obtain ⟨i, hi⟩ := Option.ne_none_iff_exists'.1 hd
  obtain ⟨q, hq, _, hmatches⟩ := exists_row_of_decode hi
  obtain rfl := rows_op_injective hq hrow ((opField_of_matches hq hmatches).symm.trans (shift28_eq.1 hop))
  exact hne hmatches

theorem txputWord_eq_encode : ∀ c : Byte, 0x30000000 ||| c.zeroExtend 32 = encode (.txput c) := by decide

/-! ### The obligations -/

/-- Settles O24: the branches of `TXPUT` in order; the write is read back by the rule of `TXBUF`. -/
theorem txputAppendsOneCharacter : Obligations.TxputAppendsOneCharacter := by
  refine ⟨fun c => ?word, noOtherWordOfItsOp (mnemonic := "TXPUT") (by decide), fun c s => ⟨fun hm => ?locked,
    fun hm hl => ?full, fun hm hl => ⟨memWrite s.txbuf s.txlen c, ?room, ?written, fun a ha => ?kept⟩⟩⟩
  case word => rw [txputWord_eq_encode, decode_encode rfl]
  case locked => exact if_pos hm
  case full => exact (if_neg (not_not.2 hm)).trans (if_pos hl)
  case room => exact (if_neg (not_not.2 hm)).trans ((if_neg hl.ne).trans (if_neg hl.not_gt))
  case written => rw [memRead_memWrite, if_pos rfl]
  case kept => rw [memRead_memWrite, if_neg ha]

/-- Settles O49: a full group of the stream pushes one character and empties the accumulator, and the trailing
bits stand in it; a queue cut at its depth stays cut at every later push. -/
theorem accumulatedBitsAreTheDecodedText : Obligations.AccumulatedBitsAreTheDecodedText := by
  intro bits
  induction bits using groupInduction with
  | short bits h =>
    intro s hcnt hshift hroom
    rw [accumulateAll_of_short hcnt hshift h, decodeBits_of_short h, List.append_nil, Nat.div_eq_of_lt h]
    refine ⟨(List.take_of_length_le hroom).symm, BitVec.toNat_ofNat _ _, ?_⟩
    rw [setAccumulator_rxshift, BitVec.toNat_ofNat, Nat.mod_eq_of_lt]
    · rfl
    · exact (bitsValue_lt bits).trans_le (Nat.pow_le_pow_right (by decide) h.le)
  | group g rest hg ih =>
    intro s hcnt hshift hroom
    have hqueue := push_rxfifo hroom (BitVec.ofNat 8 (bitsValue g))
    obtain ⟨hfifo, hcount, hvalue⟩ := ih (push (BitVec.ofNat 8 (bitsValue g)) s) (by rw [push_rxcnt, hcnt])
      (by rw [push_rxshift, hshift]) (by rw [hqueue, push_config]; exact List.length_take_le ..)
    rw [accumulateAll_append, accumulateAll_of_group hcnt hshift hg, decodeBits_of_group hg]
    have hlen : (g ++ rest).length = 8 + rest.length := by rw [List.length_append, hg]
    refine ⟨?queue, ?count, ?value⟩
    case queue => rw [hfifo, hqueue, push_config, take_take_append, ← List.append_cons]
    case count => rw [hcount, hlen, Nat.add_mod_left]
    case value =>
      rw [hvalue, hlen, show 8 * ((8 + rest.length) / 8) = g.length + 8 * (rest.length / 8) by omega,
        List.drop_length_add_append]

/-- Settles O50: the groups of the characters stand one after the other. -/
theorem encodeGivesTheBits : Obligations.EncodeGivesTheBits :=
  fun text => ⟨fun ⟨_, hc, h⟩ => encodeText_of_nonAscii hc h, fun h =>
    ⟨text.flatMap charBits, encodeText_of_ascii h, length_flatMap_charBits text,
      fun _ _ => flatMap_charBits_getElem?⟩⟩

/-- Settles O51: by induction over the groups of the stream. -/
theorem decodeGroupsTheBits : Obligations.DecodeGroupsTheBits :=
  fun bits => ⟨length_decodeBits bits, fun _ _ => decodeBits_getElem?⟩

/-- Settles O52: the group of a character decodes to it. -/
theorem textRoundTrip : Obligations.TextRoundTrip :=
  fun text h => ⟨_, encodeText_of_ascii h, decodeBits_flatMap_charBits text⟩

/-- Settles O25: the two branches of `TXCLR`. -/
theorem txclrEmptiesTheText : Obligations.TxclrEmptiesTheText :=
  ⟨rfl, noOtherWordOfItsOp (mnemonic := "TXCLR") (by decide), fun _ =>
    ⟨fun hm => if_pos hm, fun hm => if_neg (not_not.2 hm)⟩⟩

/-- Settles O26: the two branches of `RXGET`, by the queue. -/
theorem rxgetTakesTheOldestCharacter : Obligations.RxgetTakesTheOldestCharacter := by
  refine ⟨rfl, noOtherWordOfItsOp (mnemonic := "RXGET") (by decide), fun s =>
    ⟨fun h => ?empty, fun c rest h => ?pop⟩⟩
  case empty => simp only [exec, execRxget, h]; rfl
  case pop => simp only [exec, execRxget, h]; rfl

end Sys2Proof
end

section
/-! The tone scheduler family (41_tone_scheduler.md). A tick step in Transmitting is described once, by its
output and its timer; the timeline of a transmission is an induction over the ticks done, with the state of the
transmission in flight (`InFlight`) at each of them. -/

namespace Sys2Proof

open Sys2Proof.Machine

/-! ### The text and its bits -/

section Text

variable {s : State} {text : List Byte}

/-- A text all of whose cells are written can be read. -/
theorem exists_text_of_written (h : ∀ j < s.txlen, (memRead s.txbuf j).isSome) :
    ∃ text, memReadRange s.txbuf 0 s.txlen = .ok text := by
  obtain ⟨text, hread, _⟩ := memReadRange_ok (k := 0) (by simpa using h)
  exact ⟨text, hread⟩

/-- What was read is the content of the cells below `TXLEN`. -/
theorem memRead_of_text (ht : memReadRange s.txbuf 0 s.txlen = .ok text) {j : Nat} (hj : j < s.txlen) :
    memRead s.txbuf j = text[j]? := by
  simpa using (memReadRange_get ht).2 j hj

theorem length_of_text (ht : memReadRange s.txbuf 0 s.txlen = .ok text) : text.length = s.txlen :=
  (memReadRange_get ht).1

theorem written_of_asciiText (h : AsciiText s) : ∀ j < s.txlen, (memRead s.txbuf j).isSome := fun j hj => by
  obtain ⟨c, hc, _⟩ := h j hj
  exact Option.isSome_of_eq_some hc

/-- `encode` accepts the text that was read exactly if every cell holds an ASCII character. -/
theorem all_isAscii_iff (ht : memReadRange s.txbuf 0 s.txlen = .ok text) :
    text.all isAscii = true ↔ AsciiText s := by
  rw [List.all_eq_true]
  constructor
  · intro hall j hj
    have hlt : j < text.length := by rwa [length_of_text ht]
    exact ⟨text[j], by rw [memRead_of_text ht hj, List.getElem?_eq_getElem hlt],
      of_decide_eq_true (hall _ (List.getElem_mem hlt))⟩
  · intro hascii c hc
    obtain ⟨j, hlt, rfl⟩ := List.getElem_of_mem hc
    have hj : j < s.txlen := by rwa [← length_of_text ht]
    obtain ⟨c, hread, hsmall⟩ := hascii j hj
    rw [memRead_of_text ht hj, List.getElem?_eq_getElem hlt, Option.some_inj] at hread
    exact decide_eq_true (hread ▸ hsmall)

theorem eq_flatMap_of_encodeText {bits : List Bool} (h : encodeText text = .ok bits) :
    bits = text.flatMap charBits := by
  unfold encodeText at h
  split at h
  · exact (Except.ok.inj h).symm
  · cases h

/-- Bit `i` of the encoded text is the bit of symbol `i`. -/
theorem textBit_eq_encoded (ht : memReadRange s.txbuf 0 s.txlen = .ok text) {i : Nat} (hi : i < 8 * s.txlen) :
    textBit s i = (text.flatMap charBits)[i]? := by
  have hlt : i / 8 < text.length := by rw [length_of_text ht]; omega
  have hc : text[i / 8]? = some text[i / 8] := List.getElem?_eq_getElem hlt
  rw [flatMap_charBits_getElem? hc, ← charBits_getElem? _ (Nat.mod_lt i (by decide)), textBit,
    memRead_of_text ht (by omega), hc]
  simp [charBits, Nat.mod_lt]

theorem exists_textBit (h : AsciiText s) {i : Nat} (hi : i < 8 * s.txlen) : ∃ b, textBit s i = some b := by
  obtain ⟨c, hc, _⟩ := h (i / 8) (by omega)
  exact ⟨_, by rw [textBit, hc]; rfl⟩

end Text

/-! ### The plan -/

/-- A `filterMap` over `0 .. n - 1` that drops nothing. -/
theorem filterMap_range_of_isSome {β : Type} {f : Nat → Option β} {n : Nat} (h : ∀ i < n, (f i).isSome) :
    ((List.range n).filterMap f).length = n ∧ ∀ i < n, ((List.range n).filterMap f)[i]? = f i := by
  induction n with
  | zero => simp
  | succ n ih =>
    obtain ⟨hlen, hget⟩ := ih fun i hi => h i (by omega)
    obtain ⟨x, hx⟩ := Option.isSome_iff_exists.1 (h n (by omega))
    have hsplit : (List.range (n + 1)).filterMap f = (List.range n).filterMap f ++ [x] := by
      simp [List.range_succ, hx]
    rw [hsplit]
    refine ⟨by simp [hlen], fun i hi => ?_⟩
    rcases Nat.lt_succ_iff_lt_or_eq.1 hi with hi | rfl
    · rw [List.getElem?_append_left (by omega), hget i hi]
    · rw [List.getElem?_append_right (by omega), hlen, Nat.sub_self, hx]
      rfl

/-- What a ToneSpec of the plan says of its bit and its window. -/
theorem toneSpec_eq_some {s : State} {i : Nat} {p : ToneSpec} (h : toneSpec s i = some p) :
    ∃ b, textBit s i = some b ∧ p.frequency = toneFrequency s b ∧ p.start = s.t0 + i * s.cfg.tsym.toNat ∧
      p.stop = p.start + s.cfg.tsym.toNat := by
  obtain ⟨b, hb, rfl⟩ := Option.map_eq_some_iff.1 h
  exact ⟨b, hb, rfl, rfl, by simp only [Nat.add_mul, Nat.one_mul, Nat.add_assoc]⟩

theorem toneFrequency_false (s : State) : toneFrequency s false = s.cfg.f0.toNat := by
  simp [toneFrequency, bitNat]

theorem toneFrequency_true (s : State) : toneFrequency s true = s.cfg.f0.toNat + s.cfg.delta.toNat := by
  simp [toneFrequency, bitNat]

/-! ### The envelope -/

section Envelope

variable {tsym ramp k : Nat}

theorem envelope_le (tsym ramp k : Nat) : (envelope tsym ramp k).1 ≤ (envelope tsym ramp k).2 := by
  unfold envelope
  split
  · exact Nat.le_refl 1
  · exact Nat.min_le_left _ _

theorem envelopeGain_of_ramp_zero (h : ramp = 0) : envelopeGain tsym ramp k = 1 := by
  simp [envelopeGain, envelope, h]

theorem envelopeGain_of_ramp_pos (h : 0 < ramp) :
    envelopeGain tsym ramp k = ((min ramp (min k (tsym - k)) : Nat) : ℚ) / ramp := by
  simp only [envelopeGain, envelope, if_neg h.ne']

theorem envelopeGain_nonneg (tsym ramp k : Nat) : 0 ≤ envelopeGain tsym ramp k :=
  div_nonneg (Nat.cast_nonneg _) (Nat.cast_nonneg _)

theorem envelopeGain_le_one (tsym ramp k : Nat) : envelopeGain tsym ramp k ≤ 1 :=
  div_le_one_of_le₀ (Nat.cast_le.2 (envelope_le ..)) (Nat.cast_nonneg _)

end Envelope

/-! ### The oscillator -/

theorem ftw_eq_floor {c : Config} (f : Nat) (h : 0 < c.fs) :
    (ftw c f : ℤ) = ⌊(f * 2 ^ c.phw : ℚ) / c.fs + 1 / 2⌋ := by
  have hfs : (c.fs : ℚ) ≠ 0 := Nat.cast_ne_zero.2 h.ne'
  have hquot : (f * 2 ^ c.phw : ℚ) / c.fs + 1 / 2 = ((2 * f * 2 ^ c.phw + c.fs : Nat) : ℚ) / (2 * c.fs : Nat) := by
    push_cast
    field_simp
  rw [hquot, Rat.floor_natCast_div_natCast]
  rfl

theorem phase_zero (c : Config) (f : Nat) : phase c f 0 = 0 := by
  simp [phase]

theorem phase_succ (c : Config) (f k : Nat) : phase c f (k + 1) = (phase c f k + ftw c f) % 2 ^ c.phw := by
  rw [phase, phase, Nat.mod_add_mod, Nat.add_mul, Nat.one_mul]

/-! ### The output sample -/

theorem abs_clampTo_le (w : Nat) (v : Int) : |clampTo w v| ≤ w :=
  abs_le.2 (by unfold clampTo; omega)

/-- Whatever the waveform, it keeps the bound of R129. -/
theorem abs_wave_le (c : Config) (p : Nat) : |wave c p| ≤ (wmax c : Int) := by
  unfold wave
  cases c.wave
  · exact abs_clampTo_le _ _
  · exact abs_clampTo_le _ _

/-- A quotient of a number within `y * w` stays within `w`, for `y` = 0 too. -/
theorem abs_tdiv_le {x : Int} {y w : Nat} (h : x.natAbs ≤ y * w) : |tdiv x y| ≤ (w : Int) := by
  have hquot : (tdiv x y).natAbs = x.natAbs / y := Int.natAbs_tdiv x y
  rw [Int.abs_eq_natAbs, hquot]
  exact Int.ofNat_le.2 (Nat.div_le_of_le_mul h)

section Sample

variable {s : State}

theorem abs_toneSample_le (h : s.mgain.toNat ≤ s.config.ampOne) (b : Bool) (k : Nat) :
    |toneSample s b k| ≤ (wmax s.config : Int) := by
  have hwave : (wave s.config (phase s.config (toneFrequency s b) k)).natAbs ≤ wmax s.config :=
    Int.ofNat_le.1 (Int.abs_eq_natAbs _ ▸ abs_wave_le ..)
  have hscaled := abs_tdiv_le (x := s.mgain.toNat * (envelope s.cfg.tsym.toNat s.cfg.ramp.toNat k).1 *
      wave s.config (phase s.config (toneFrequency s b) k))
    (y := s.config.ampOne * (envelope s.cfg.tsym.toNat s.cfg.ramp.toNat k).2) (w := wmax s.config) (by
      rw [Int.natAbs_mul, Int.natAbs_mul, Int.natAbs_natCast, Int.natAbs_natCast]
      exact Nat.mul_le_mul (Nat.mul_le_mul h (envelope_le ..)) hwave)
  simpa [toneSample] using hscaled

theorem toneSample_of_mgain_zero (h : s.mgain = 0) (b : Bool) (k : Nat) : toneSample s b k = 0 := by
  simp [toneSample, h, tdiv]

/-- A ramp starts from silence. -/
theorem toneSample_at_start (h : 0 < s.cfg.ramp.toNat) (b : Bool) : toneSample s b 0 = 0 := by
  simp [toneSample, envelope, h.ne', tdiv]

/-- What an output sample is: silence, or the sample of the symbol in flight. -/
theorem toneOut_cases {o : Int} (h : toneOut s = .ok o) :
    o = 0 ∨ s.mode = .transmitting ∧ s.txcnt < s.nsym * s.cfg.tsym.toNat ∧
      ∃ b, textBit s (s.txcnt / s.cfg.tsym.toNat) = some b ∧ o = toneSample s b (s.txcnt % s.cfg.tsym.toNat) := by
  cases hm : s.mode with
  | idle => exact .inl (by simpa [toneOut, hm, eq_comm] using h)
  | listening => exact .inl (by simpa [toneOut, hm, eq_comm] using h)
  | transmitting =>
    rw [toneOut, hm] at h
    rcases toneOutTransmitting_cases s with ⟨_, ho⟩ | ⟨hlt, ⟨_, ho⟩ | ⟨b, hb, ho⟩⟩
    · exact .inl (by simpa [ho, eq_comm] using h)
    · simp [ho] at h
    · exact .inr ⟨rfl, hlt, b, hb, by simpa [ho, eq_comm] using h⟩

theorem toneOut_of_guard (hm : s.mode = .transmitting) (h : s.nsym * s.cfg.tsym.toNat ≤ s.txcnt) :
    toneOut s = .ok 0 := by
  simp [toneOut, hm, toneOutTransmitting, h]

theorem toneOut_of_symbol {b : Bool} (hm : s.mode = .transmitting) (h : s.txcnt < s.nsym * s.cfg.tsym.toNat)
    (hb : textBit s (s.txcnt / s.cfg.tsym.toNat) = some b) :
    toneOut s = .ok (toneSample s b (s.txcnt % s.cfg.tsym.toNat)) := by
  simp [toneOut, hm, toneOutTransmitting, h, hb]

/-! ### The tick step -/

theorem tick_of_idle (h : s.mode = .idle) :
    tick s = .next { s with out := 0, clk := (s.clk + 1) % 2 ^ s.config.clkw } := by
  have htimers : timers (driveOut 0 s) = driveOut 0 s := by simp [timers, h]
  rw [tick_of_ok (o := 0) (by simp [toneOut, h]), htimers]
  rfl

theorem tick_of_transmitting {o : Int} (hm : s.mode = .transmitting) (ho : toneOut s = .ok o) :
    tick s = .next (advanceClk (transmitTimer (driveOut o s))) := by
  rw [tick_of_ok ho]
  simp only [timers, driveOut_mode, hm]

/-- Before the end of the guard interval a tick step counts. -/
theorem tick_of_counting {o : Int} (hm : s.mode = .transmitting) (ho : toneOut s = .ok o)
    (h : s.txcnt + 1 ≠ s.nsym * s.cfg.tsym.toNat + s.config.guardTicks) :
    tick s = .next { s with out := o, clk := (s.clk + 1) % 2 ^ s.config.clkw, txcnt := s.txcnt + 1 } := by
  have htimer : transmitTimer (driveOut o s) = countTx (driveOut o s) := if_neg h
  rw [tick_of_transmitting hm ho, htimer]
  rfl

/-- The tick step at the end of the guard interval completes. -/
theorem tick_of_completing {o : Int} (hm : s.mode = .transmitting) (ho : toneOut s = .ok o)
    (h : s.txcnt + 1 = s.nsym * s.cfg.tsym.toNat + s.config.guardTicks) :
    tick s = .next
      { s with
        out := o
        clk := (s.clk + 1) % 2 ^ s.config.clkw
        mode := .idle
        mgain := 0
        txcnt := 0
        nsym := 0
        events := s.events ||| 0b0100 } := by
  have htimer : transmitTimer (driveOut o s) = txComplete (countTx (driveOut o s)) := if_pos h
  rw [tick_of_transmitting hm ho, htimer]
  rfl

end Sample

/-! ### The commands -/

section Commands

variable {s : State} {text : List Byte}

/-- `TRANSMIT` after its two tests: the text decides. -/
theorem exec_transmit_of_text (hm : s.mode = .idle) (hs : s.port.sinkRdy = true)
    (ht : memReadRange s.txbuf 0 s.txlen = .ok text) :
    exec .transmit s = if text.all isAscii then respond (BitVec.ofNat 32 (8 * s.txlen)) (startTransmit s)
      else raise .encodingError s := by
  simp only [exec, execTransmit, hm, hs, ht, ne_eq, not_true_eq_false, reduceCtorEq, if_false]

theorem exec_transmit_accepted (hm : s.mode = .idle) (hs : s.port.sinkRdy = true) (ha : AsciiText s) :
    exec .transmit s = respond (BitVec.ofNat 32 (8 * s.txlen)) (startTransmit s) := by
  obtain ⟨text, ht⟩ := exists_text_of_written (written_of_asciiText ha)
  rw [exec_transmit_of_text hm hs ht, if_pos ((all_isAscii_iff ht).2 ha)]

theorem exec_txstop_of_transmitting (h : s.mode = .transmitting) :
    exec .txstop s = .next (Answered 0 1 (endTransmit s)) := by
  simp only [exec, execTxstop, h]
  rfl

theorem exec_txstop_of_not_transmitting (h : s.mode ≠ .transmitting) :
    exec .txstop s = .next (Answered 0 0 s) := by
  cases hm : s.mode with
  | transmitting => exact absurd hm h
  | idle => simp only [exec, execTxstop, hm]; rfl
  | listening => simp only [exec, execTxstop, hm]; rfl

end Commands

/-! ### A transmission in flight -/

/-- The number of tick steps a transmission of the text of `s` takes (R136). -/
def transmissionTicks (s : State) : Nat := 8 * s.txlen * s.cfg.tsym.toNat + s.config.guardTicks

/-- `u` is the transmission that `TRANSMIT` started in `s`, with `n` tick steps done. -/
structure InFlight (s : State) (n : Nat) (u : State) : Prop where
  config : u.config = s.config
  cfg : u.cfg = s.cfg
  mode : u.mode = .transmitting
  mgain : u.mgain = if 0 < s.txlen then s.cfg.amp else 0
  txcnt : u.txcnt = n
  nsym : u.nsym = 8 * s.txlen
  t0 : u.t0 = s.clk
  clk : u.clk = (s.clk + n) % 2 ^ s.config.clkw
  txlen : u.txlen = s.txlen
  txbuf : u.txbuf = s.txbuf
  events : u.events = s.events

/-- `o` is the output sample of tick step `n + 1` of the transmission that `TRANSMIT` started in `s`. -/
def SampleAt (s : State) (n : Nat) (o : Int) : Prop :=
  (n < 8 * s.txlen * s.cfg.tsym.toNat →
    ∃ b, textBit s (n / s.cfg.tsym.toNat) = some b ∧
      o = toneSample { s with mgain := s.cfg.amp } b (n % s.cfg.tsym.toNat)) ∧
  (8 * s.txlen * s.cfg.tsym.toNat ≤ n → o = 0)

section Flight

variable {s u v : State} {n : Nat}

theorem inFlight_startTransmit (h : Inv s) (st : BitVec 8) (d : Word) :
    InFlight s 0 (answer st d (startTransmit s)) where
  config := rfl
  cfg := rfl
  mode := rfl
  mgain := rfl
  txcnt := rfl
  nsym := rfl
  t0 := rfl
  clk := (Nat.mod_eq_of_lt h.widths.1).symm
  txlen := rfl
  txbuf := rfl
  events := rfl

/-- The end of a period and a period without a command leave a transmission in flight alone. -/
theorem InFlight.after_quiet_command (h : InFlight s n u) : InFlight s n (noResponse (nextPeriod u)) := by
  constructor <;> simp [h.config, h.cfg, h.mode, h.mgain, h.txcnt, h.nsym, h.t0, h.clk, h.txlen, h.txbuf, h.events]

/-- The output sample of a transmission in flight is a function of its text and of the ticks done. -/
theorem InFlight.exists_sample (h : InFlight s n u) (ha : AsciiText s) :
    ∃ o, toneOut u = .ok o ∧ SampleAt s n o := by
  have hlen : u.nsym * u.cfg.tsym.toNat = 8 * s.txlen * s.cfg.tsym.toNat := by rw [h.nsym, h.cfg]
  have htxcnt := h.txcnt
  by_cases hn : n < 8 * s.txlen * s.cfg.tsym.toNat
  case neg => exact ⟨0, toneOut_of_guard h.mode (by omega), fun hlt => absurd hlt hn, fun _ => rfl⟩
  case pos =>
    obtain ⟨b, hb⟩ := exists_textBit ha (Nat.div_lt_of_lt_mul (by rwa [Nat.mul_comm]))
    have hbit : textBit u (u.txcnt / u.cfg.tsym.toNat) = some b := by
      rw [textBit, h.txbuf, h.txcnt, h.cfg]
      exact hb
    have hpos : 0 < s.txlen := Nat.pos_of_ne_zero fun h0 => by simp [h0] at hn
    have hsample : toneSample u b (u.txcnt % u.cfg.tsym.toNat) =
        toneSample { s with mgain := s.cfg.amp } b (n % s.cfg.tsym.toNat) := by
      simp only [toneSample, toneFrequency, h.config, h.cfg, h.txcnt, h.mgain, if_pos hpos]
    exact ⟨_, toneOut_of_symbol h.mode (by omega) hbit, fun _ => ⟨b, hb, hsample⟩, fun hle => absurd hn (by omega)⟩

/-- The clock of a transmission in flight counts its tick steps. -/
theorem InFlight.clk_succ (h : InFlight s n u) :
    (u.clk + 1) % 2 ^ u.config.clkw = (s.clk + (n + 1)) % 2 ^ s.config.clkw := by
  rw [h.clk, h.config, Nat.mod_add_mod, Nat.add_assoc]

theorem InFlight.lastTick_iff (h : InFlight s n u) :
    u.txcnt + 1 = u.nsym * u.cfg.tsym.toNat + u.config.guardTicks ↔ n + 1 = transmissionTicks s := by
  rw [h.txcnt, h.nsym, h.cfg, h.config, transmissionTicks]

/-- A tick step before the end of the guard interval keeps the transmission in flight. -/
theorem InFlight.tick_counts (h : InFlight s n u) (ha : AsciiText s) (hn : n + 1 ≠ transmissionTicks s) :
    ∃ v, tick u = .next v ∧ InFlight s (n + 1) v ∧ SampleAt s n v.out ∧ v.future = u.future := by
  obtain ⟨o, ho, hsample⟩ := h.exists_sample ha
  refine ⟨_, tick_of_counting h.mode ho (mt h.lastTick_iff.1 hn), ?_, hsample, rfl⟩
  exact { h with txcnt := congrArg (· + 1) h.txcnt, clk := h.clk_succ }

/-- The periods to come after a quiet one are quiet, and so is the next one. -/
theorem quiet_nextPeriod (h : QuietFuture u) :
    (nextPeriod u).port.rst = false ∧ (nextPeriod u).port.cmd = none ∧ QuietFuture (nextPeriod u) := by
  rcases nextPeriod_cases u with ⟨hf, hu⟩ | ⟨p, rest, hf, hu⟩ <;> rw [hu]
  · exact ⟨rfl, rfl, h⟩
  · rw [QuietFuture, hf, List.forall_mem_cons] at h
    obtain ⟨⟨hrst, hcmd⟩, hrest⟩ := h
    exact ⟨hrst, hcmd, hrest⟩

/-- Period `n + 1` of an accepted `TRANSMIT` is the tick step of the transmission in flight with `n` ticks
done, and the move to the next inputs. -/
theorem runSteps_transmission (hinv : Inv s) (hm : s.mode = .idle) (hr : s.port.rst = false)
    (hc : s.port.cmd = some 0x50000000) (hs : s.port.sinkRdy = true) (ha : AsciiText s) (hq : QuietFuture s)
    (hn : n < transmissionTicks s) :
    ∃ u, InFlight s n u ∧ QuietFuture u ∧
      runSteps (n + 1) s = andThen (tick u) (fun v => .next (nextPeriod v)) := by
  induction n with
  | zero =>
    refine ⟨_, inFlight_startTransmit hinv 0 (BitVec.ofNat 32 (8 * s.txlen)), hq, ?_⟩
    have hfirst : runSteps 1 s = step s := rfl
    rw [hfirst, step_of_rst_false hr, commandPart_of_decode (i := .transmit) hc rfl,
      exec_transmit_accepted hm hs ha]
    rfl
  | succ n ih =>
    obtain ⟨u, hu, hquiet, hrun⟩ := ih (by omega)
    obtain ⟨v, hv, hflight, _, hfuture⟩ := hu.tick_counts ha (by omega)
    obtain ⟨hrst, hcmd, hnext⟩ := quiet_nextPeriod (u := v) (by rwa [QuietFuture, hfuture])
    refine ⟨_, hflight.after_quiet_command, hnext, ?_⟩
    have hstep : runSteps (n + 1 + 1) s = step (nextPeriod v) := by
      rw [runSteps, hrun, hv]
      rfl
    rw [hstep, step_of_rst_false hrst, commandPart_of_noCommand hcmd]
    rfl

end Flight

/-! ### The obligations -/

/-- Settles O37: by induction over the ticks done (`runSteps_transmission`), period `n` is the tick step of the
transmission in flight; it counts, or completes in the last period. -/
theorem transmissionTakesItsTime : Obligations.TransmissionTakesItsTime := by
  intro s hinv hm hr hc hs ha hq n hpos hle
  obtain ⟨n, rfl⟩ := Nat.exists_eq_add_one.2 hpos
  obtain ⟨u, hu, _, hrun⟩ := runSteps_transmission hinv hm hr hc hs ha hq (n := n) hle
  obtain ⟨o, ho, htone, hguard⟩ := hu.exists_sample ha
  by_cases hlast : n + 1 = transmissionTicks s
  case neg =>
    have htick := tick_of_counting hu.mode ho (mt hu.lastTick_iff.1 hlast)
    refine ⟨_, by rw [hrun, htick]; rfl, ?_⟩
    rw [nextPeriod_t0, nextPeriod_clk, nextPeriod_txlen, nextPeriod_txbuf, nextPeriod_mode, nextPeriod_txcnt,
      nextPeriod_nsym, nextPeriod_events, nextPeriod_mgain, nextPeriod_out]
    exact ⟨hu.t0, hu.clk_succ, hu.txlen, hu.txbuf,
      fun _ => ⟨hu.mode, congrArg (· + 1) hu.txcnt, hu.nsym, hu.events⟩, fun h => absurd h hlast, htone,
      fun h => hguard (Nat.le_of_lt_succ h)⟩
  case pos =>
    have htick := tick_of_completing hu.mode ho (hu.lastTick_iff.2 hlast)
    refine ⟨_, by rw [hrun, htick]; rfl, ?_⟩
    rw [nextPeriod_t0, nextPeriod_clk, nextPeriod_txlen, nextPeriod_txbuf, nextPeriod_mode, nextPeriod_txcnt,
      nextPeriod_nsym, nextPeriod_events, nextPeriod_mgain, nextPeriod_out]
    exact ⟨hu.t0, hu.clk_succ, hu.txlen, hu.txbuf, fun h => absurd hlast h.ne,
      fun _ => ⟨rfl, rfl, rfl, rfl, congrArg (· ||| 0b0100) hu.events⟩, htone,
      fun h => hguard (Nat.le_of_lt_succ h)⟩

/-- Settles O27: the branches of `TRANSMIT` in order; a readable text is accepted exactly if it is ASCII. -/
theorem transmitStartsThePlan : Obligations.TransmitStartsThePlan := by
  refine ⟨rfl, noOtherWordOfItsOp (mnemonic := "TRANSMIT") (by decide), fun s =>
    ⟨fun hm => ?busy, fun hm hs => ?notReady, fun hm hs hwritten hbad => ?encodingError, fun hm hs ha => ?accepted⟩⟩
  case busy => exact if_pos hm
  case notReady => exact (if_neg (not_not.2 hm)).trans (if_pos hs)
  case encodingError =>
    obtain ⟨text, ht⟩ := exists_text_of_written hwritten
    have hnot : ¬ AsciiText s := fun ha => by
      obtain ⟨j, hj, c, hc, hbig⟩ := hbad
      obtain ⟨d, hd, hsmall⟩ := ha j hj
      obtain rfl : c = d := Option.some.inj (hc.symm.trans hd)
      omega
    rw [exec_transmit_of_text hm hs ht, if_neg (mt (all_isAscii_iff ht).1 hnot)]
    rfl
  case accepted =>
    rw [exec_transmit_accepted hm hs ha]
    rfl

/-- Settles O38: no symbol of a readable text is without a bit, so the plan has a ToneSpec for each, and bit `i` of
the encoded text is the bit of symbol `i`. -/
theorem planIsContiguous : Obligations.PlanIsContiguous := by
  refine ⟨fun s h => by simp [plan, h], fun s text bits hnsym ht hbits => ?_⟩
  obtain rfl := eq_flatMap_of_encodeText hbits
  have hlen : (text.flatMap charBits).length = s.nsym := by
    rw [length_flatMap_charBits, length_of_text ht, hnsym]
  have hbit : ∀ i < s.nsym, textBit s i = (text.flatMap charBits)[i]? := fun i hi =>
    textBit_eq_encoded ht (hnsym ▸ hi)
  obtain ⟨hplan, hget⟩ := filterMap_range_of_isSome (f := toneSpec s) (n := s.nsym) fun i hi => by
    rw [toneSpec, Option.isSome_map, hbit i hi, List.getElem?_eq_getElem (hlen ▸ hi)]
    rfl
  have hspec : ∀ {i : Nat} {p : ToneSpec}, (plan s)[i]? = some p → i < s.nsym ∧ toneSpec s i = some p := by
    intro i p hp
    have hi : i < s.nsym := hplan ▸ (List.getElem?_eq_some_iff.1 hp).1
    exact ⟨hi, (hget i hi).symm.trans hp⟩
  refine ⟨hplan, hlen, fun i p hp => ?_⟩
  obtain ⟨hi, hsi⟩ := hspec hp
  obtain ⟨b, hb, hfreq, hstart, hstop⟩ := toneSpec_eq_some hsi
  rw [← hbit i hi, hb]
  refine ⟨hstart, hstop, fun q hq => ?next, fun h => ?zero, fun h => ?one⟩
  case next =>
    obtain ⟨_, _, _, hnext, _⟩ := toneSpec_eq_some (hspec hq).2
    rw [hstop, hstart, hnext, Nat.add_mul, Nat.one_mul, Nat.add_assoc]
  case zero => rw [hfreq, Option.some.inj h, toneFrequency_false]
  case one => rw [hfreq, Option.some.inj h, toneFrequency_true]

/-- Settles O39: the three minima of the envelope, by the place of `k`. -/
theorem envelopeIsTheTrapezoid : Obligations.EnvelopeIsTheTrapezoid := by
  intro tsym ramp k hk
  refine ⟨envelopeGain_nonneg .., envelopeGain_le_one .., envelopeGain_of_ramp_zero, fun h => ?minimum,
    fun h => ?start, fun h hfit => ?trapezoid, fun hover => ?triangle⟩
  case minimum => rw [envelopeGain_of_ramp_pos h, Nat.cast_min, Nat.cast_min, Nat.cast_sub hk.le]
  case start => simp [envelopeGain_of_ramp_pos h]
  case trapezoid =>
    rw [envelopeGain_of_ramp_pos h]
    refine ⟨fun hup => ?_, fun hlow hhigh => ?_, fun hdown => ?_⟩
    · rw [show min ramp (min k (tsym - k)) = k by omega]
    · rw [show min ramp (min k (tsym - k)) = ramp by omega, div_self (Nat.cast_ne_zero.2 h.ne')]
    · rw [show min ramp (min k (tsym - k)) = tsym - k by omega]
  case triangle =>
    have h : 0 < ramp := by omega
    rw [envelopeGain_of_ramp_pos h, envelopeGain_of_ramp_pos h]
    refine ⟨div_le_div_of_nonneg_right (Nat.cast_le.2 ?_) (Nat.cast_nonneg _), ?_⟩
    · omega
    · rw [show min ramp (min (tsym / 2) (tsym - tsym / 2)) = tsym / 2 by omega]

/-- Settles O40: a quotient of numbers rounded half up is the floor of the exact quotient plus one half. -/
theorem tuningWordIsTheNearest : Obligations.TuningWordIsTheNearest :=
  ⟨by decide, by decide, fun c f k h => ⟨ftw_eq_floor f h, phase_zero c f, phase_succ c f k⟩⟩

/-- Settles O41: the sample is silence or the sample of the symbol in flight, whose window is its entry of the
plan. -/
theorem outputFollowsThePlan : Obligations.OutputFollowsThePlan := by
  refine ⟨fun s o hgain ho => ?silence, fun s p hm hlt hp => ?symbol⟩
  case silence =>
    rcases toneOut_cases ho with rfl | ⟨hm, hlt, b, _, rfl⟩
    · simp
    · refine ⟨abs_toneSample_le hgain _ _, fun h => absurd hm h, fun h => absurd hlt (Nat.not_lt.2 h),
        fun h => toneSample_of_mgain_zero h _ _, fun hstart hramp => ?_⟩
      rw [hstart]
      exact toneSample_at_start hramp b
  case symbol =>
    obtain ⟨b, hb, hfreq, hstart, hstop⟩ := toneSpec_eq_some hp
    have hpos : 0 < s.cfg.tsym.toNat := Nat.pos_of_ne_zero fun h0 => by simp [h0] at hlt
    have hdiv := Nat.div_add_mod' s.txcnt s.cfg.tsym.toNat
    have hmod := Nat.mod_lt s.txcnt hpos
    have hoffset : s.t0 + s.txcnt - p.start = s.txcnt % s.cfg.tsym.toNat := by omega
    refine ⟨by omega, by omega, _, rfl, abs_wave_le _ _, ?_⟩
    rw [toneOut_of_symbol hm hlt hb, hoffset, hfreq]
    rfl

/-- Settles O57: the two commands that read the pin have no other word than the two named. -/
theorem sinkPinIsReadByTransmitOnly : Obligations.SinkPinIsReadByTransmitOnly := by
  intro s b htransmit hgetsr
  refine step_withInputs (p := { s.port with sinkRdy := b }) rfl rfl (fun w i hw hd hi => ?_) rfl
    (fun _ _ _ _ _ => rfl)
  obtain ⟨hencode, _⟩ := encodeOfDecodeIsTheWord w i hd
  rcases hi with rfl | rfl
  · exact absurd (hw.trans (congrArg some hencode.symm)) htransmit
  · exact absurd (hw.trans (congrArg some hencode.symm)) hgetsr

/-- Settles O29: the two branches of `TXSTOP`; both leave a mode in which it is a no-op. -/
theorem txstopEndsATransmission : Obligations.TxstopEndsATransmission := by
  refine ⟨rfl, noOtherWordOfItsOp (mnemonic := "TXSTOP") (by decide), fun s => ⟨exec_txstop_of_transmitting,
    exec_txstop_of_not_transmitting, fun t ht => ?again, fun t hm ht => ?silent⟩⟩
  case again =>
    apply exec_txstop_of_not_transmitting
    by_cases hm : s.mode = .transmitting
    · rw [exec_txstop_of_transmitting hm] at ht
      cases ht
      exact (by decide : Mode.idle ≠ .transmitting)
    · rw [exec_txstop_of_not_transmitting hm] at ht
      cases ht
      exact hm
  case silent =>
    rw [exec_txstop_of_transmitting hm] at ht
    cases ht
    exact tick_of_idle rfl

/-- Settles O36: the tick step of a session in Idle, and the two branches of the transmit timer. -/
theorem tickCountsOrCompletesATransmission : Obligations.TickCountsOrCompletesATransmission :=
  ⟨fun _ => tick_of_idle, fun _ _ hm ho => ⟨tick_of_counting hm ho, tick_of_completing hm ho⟩⟩

end Sys2Proof
end

section
/-! The spectral detector family (42_spectral_detector.md). A tick step in Listening is described once, by what the
poll timer does in it: it counts, or it is a detection tick, without or with a frame. The period of the timer is an
induction over the ticks done, with the session in progress (`Polling`) at each of them. -/

namespace Sys2Proof

open Sys2Proof.Machine

/-! ### The commands -/

section Commands

variable {s : State}

theorem exec_listen_accepted (hm : s.mode = .idle) (hi : s.port.inOk = true) :
    exec .listen s = .next (Answered 0 0 (startListen s)) := by
  simp only [exec, execListen, hm, hi, ne_eq, not_true_eq_false, reduceCtorEq, if_false]
  rfl

theorem exec_rxstop_of_listening (h : s.mode = .listening) :
    exec .rxstop s = .next (Answered 0 1 (endListen s)) := by
  simp only [exec, execRxstop, h]
  rfl

theorem exec_rxstop_of_not_listening (h : s.mode ≠ .listening) : exec .rxstop s = .next (Answered 0 0 s) := by
  cases hm : s.mode with
  | listening => exact absurd hm h
  | idle => simp only [exec, execRxstop, hm]; rfl
  | transmitting => simp only [exec, execRxstop, hm]; rfl

end Commands

/-! ### The tick step in Listening -/

section Tick

variable {s : State}

theorem tick_of_listening (hm : s.mode = .listening) :
    tick s = .next (advanceClk (pollTimer (driveOut 0 s))) := by
  rw [tick_of_ok (o := 0) (by simp [toneOut, hm])]
  simp only [timers, driveOut_mode, hm]

/-- A tick step that does not bring the timer to `POLL` counts. -/
theorem tick_of_pollCounting (hm : s.mode = .listening) (h : s.tickcnt.toNat + 1 ≠ s.cfg.poll.toNat) :
    tick s = .next { s with out := 0, clk := (s.clk + 1) % 2 ^ s.config.clkw, tickcnt := s.tickcnt + 1 } := by
  have htimer : pollTimer (driveOut 0 s) = setTickcnt (s.tickcnt + 1) (driveOut 0 s) :=
    if_neg (mt beq_iff_eq.1 h)
  rw [tick_of_listening hm, htimer]
  rfl

theorem tick_of_pollReached (hm : s.mode = .listening) (h : s.tickcnt.toNat + 1 = s.cfg.poll.toNat) :
    tick s = .next (advanceClk (detectionTick (setTickcnt 0 (driveOut 0 s)))) := by
  have htimer : pollTimer (driveOut 0 s) = detectionTick (setTickcnt 0 (driveOut 0 s)) :=
    if_pos (beq_iff_eq.2 h)
  rw [tick_of_listening hm, htimer]

theorem toNat_tickcnt_succ (h : s.tickcnt.toNat < s.cfg.poll.toNat) :
    (s.tickcnt + 1).toNat = s.tickcnt.toNat + 1 := by
  bv_omega

/-- The reading of the frame at the port (R154, R158). -/
def frameReading (s : State) : Reading := readingOf s (scanCells (cellsFrom 0 (portFrame s)))

/-- What a reading makes of accumulator, queue, cause and events: if valid, `FREQ` is set and the winning bin is
classified (R162). -/
def classifyReading (r : Reading) (s : State) : State :=
  if r.valid then classify r.bin (setEvents evFreq s) else s

theorem classifyReading_of_valid {r : Reading} (h : r.valid = true) :
    classifyReading r s = classify r.bin (setEvents evFreq s) := if_pos h

theorem classifyReading_of_invalid {r : Reading} (h : r.valid = false) : classifyReading r s = s :=
  if_neg (by simp [h])

/-- What the classification of a reading writes. -/
theorem classifyReading_writes (r : Reading) (s : State) :
    classifyReading r s = { s with
      rxshift := (classifyReading r s).rxshift
      rxcnt := (classifyReading r s).rxcnt
      rxfifo := (classifyReading r s).rxfifo
      err := (classifyReading r s).err
      events := (classifyReading r s).events } := by
  unfold classifyReading
  split
  · exact classify_writes _ _
  · rfl

/-- A detection tick with `in_ok` = 1: the frame of the port is captured and read, and the reading classified. -/
theorem tick_of_detection (hm : s.mode = .listening) (h : s.tickcnt.toNat + 1 = s.cfg.poll.toNat)
    (hi : s.port.inOk = true) :
    tick s = .next (advanceClk
      (withScan 0 0 (captureFrame s).frame (frameReading s) (classifyReading (frameReading s) s))) := by
  have hok : detectionTick (setTickcnt 0 (driveOut 0 s)) = detect (captureFrame (setTickcnt 0 (driveOut 0 s))) :=
    detectionTick_ok hi
  have hreading : readingOf (captureFrame (setTickcnt 0 (driveOut 0 s)))
      (peakScan (captureFrame (setTickcnt 0 (driveOut 0 s)))) = frameReading s := by
    rw [peakScan_captureFrame]
    rfl
  rw [tick_of_pollReached hm h, hok]
  rcases detect_cases (captureFrame (setTickcnt 0 (driveOut 0 s))) with ⟨hv, hd⟩ | ⟨hv, hd⟩
  · rw [hreading] at hv hd
    rw [hd, classifyReading_of_invalid hv]
    rfl
  · rw [hreading] at hv hd
    rw [hd, classifyReading_of_valid hv, ← classify_withScan]
    rfl

/-- A detection tick with `in_ok` = 0 yields no reading and posts `DeviceError` (R156). -/
theorem tick_of_deviceError (hm : s.mode = .listening) (h : s.tickcnt.toNat + 1 = s.cfg.poll.toNat)
    (hi : s.port.inOk = false) :
    tick s = .next
      { s with
        out := 0
        clk := (s.clk + 1) % 2 ^ s.config.clkw
        tickcnt := 0
        reading := { valid := false, bin := 0, mag := 0 }
        err := 0x03
        events := s.events ||| 0b0010 } := by
  have hfails : detectionTick (setTickcnt 0 (driveOut 0 s)) =
      post .deviceError (setReading ⟨false, 0, 0⟩ (setTickcnt 0 (driveOut 0 s))) := if_pos hi
  rw [tick_of_pollReached hm h, hfails]
  rfl

end Tick

/-! ### A listen session in progress -/

/-- `u` is the session that `LISTEN` started in `s`, with `n` tick steps done. -/
structure Polling (s : State) (n : Nat) (u : State) : Prop where
  cfg : u.cfg = s.cfg
  mode : u.mode = .listening
  tickcnt : u.tickcnt.toNat = n % s.cfg.poll.toNat
  fresh : n < s.cfg.poll.toNat →
    u.reading = ⟨false, 0, 0⟩ ∧ u.events = s.events ∧ u.rxcnt = 0 ∧ u.rxfifo = s.rxfifo

section Session

variable {s u v : State} {n : Nat}

theorem polling_startListen (s : State) (st : BitVec 8) (d : Word) : Polling s 0 (answer st d (startListen s)) where
  cfg := rfl
  mode := rfl
  tickcnt := (Nat.zero_mod _).symm
  fresh := fun _ => ⟨rfl, rfl, rfl, rfl⟩

/-- The end of a period and a period without a command leave a session in progress alone. -/
theorem Polling.after_quiet_command (h : Polling s n u) : Polling s n (noResponse (nextPeriod u)) where
  cfg := by simp [h.cfg]
  mode := by simp [h.mode]
  tickcnt := by simp [h.tickcnt]
  fresh := by simpa using h.fresh

theorem add_one_mod_of_ne {n p : Nat} (h : n % p + 1 ≠ p) (hp : 0 < p) : (n + 1) % p = n % p + 1 := by
  have := Nat.mod_lt n hp
  rw [← Nat.mod_add_mod, Nat.mod_eq_of_lt (by omega)]

/-- A tick step keeps a session in progress, whatever the pin and the frame. -/
theorem Polling.tick (h : Polling s n u) (hpos : 0 < s.cfg.poll.toNat) :
    ∃ v, tick u = .next v ∧ Polling s (n + 1) v := by
  have hlt : u.tickcnt.toNat < u.cfg.poll.toNat := by
    rw [h.tickcnt, h.cfg]
    exact Nat.mod_lt n hpos
  by_cases hdue : u.tickcnt.toNat + 1 = u.cfg.poll.toNat
  case neg =>
    refine ⟨_, tick_of_pollCounting h.mode hdue, h.cfg, h.mode, ?_, fun hn => h.fresh (by omega)⟩
    rw [h.tickcnt, h.cfg] at hdue
    rw [add_one_mod_of_ne hdue hpos, ← h.tickcnt]
    exact toNat_tickcnt_succ hlt
  case pos =>
    have htick := tick_of_pollReached h.mode hdue
    obtain ⟨hmode, htickcnt⟩ := tick_of_detectionDue h.mode (beq_iff_eq.2 hdue) htick
    have hcfg : _ = u.cfg := (tick_frame htick).cfg
    rw [h.tickcnt, h.cfg] at hdue
    have hmod : (n + 1) % s.cfg.poll.toNat = 0 := by rw [← Nat.mod_add_mod, hdue, Nat.mod_self]
    refine ⟨_, htick, hcfg.trans h.cfg, hmode, by rw [htickcnt, hmod]; rfl, fun hn => ?_⟩
    rw [Nat.mod_eq_of_lt hn] at hmod
    omega

/-- The periods to come after a tick step are those to come before it. -/
theorem quietFuture_tick (h : QuietFuture u) (hv : tick u = .next v) : QuietFuture v := by
  have hfuture : v.future = u.future := (tick_frame hv).future
  rwa [QuietFuture, hfuture]

/-- Period `n + 1` of an accepted `LISTEN` is the tick step of the session in progress with `n` ticks done, and the
move to the next inputs. -/
theorem runSteps_listen (hpos : 0 < s.cfg.poll.toNat) (hm : s.mode = .idle) (hr : s.port.rst = false)
    (hc : s.port.cmd = some 0x70000000) (hi : s.port.inOk = true) (hq : QuietFuture s) (n : Nat) :
    ∃ u, Polling s n u ∧ QuietFuture u ∧
      runSteps (n + 1) s = andThen (tick u) (fun v => .next (nextPeriod v)) := by
  induction n with
  | zero =>
    refine ⟨_, polling_startListen s 0 0, hq, ?_⟩
    have hfirst : runSteps 1 s = step s := rfl
    rw [hfirst, step_of_rst_false hr, commandPart_of_decode (i := .listen) hc rfl, exec_listen_accepted hm hi]
    rfl
  | succ n ih =>
    obtain ⟨u, hu, hquiet, hrun⟩ := ih
    obtain ⟨v, hv, hpolling⟩ := hu.tick hpos
    obtain ⟨hrst, hcmd, hnext⟩ := quiet_nextPeriod (quietFuture_tick hquiet hv)
    refine ⟨_, hpolling.after_quiet_command, hnext, ?_⟩
    have hstep : runSteps (n + 1 + 1) s = step (nextPeriod v) := by
      rw [runSteps, hrun, hv]
      rfl
    rw [hstep, step_of_rst_false hrst, commandPart_of_noCommand hcmd]
    rfl

end Session

/-! ### The threshold -/

theorem magmax_pos {c : Config} (h : 1 ≤ c.magw) : 0 < magmax c :=
  Nat.sub_pos_of_lt (Nat.one_lt_two_pow (Nat.one_le_iff_ne_zero.1 h))

theorem above_iff (c : Config) (d : Int) (m : Nat) :
    above c d m = true ↔ m ≠ 0 ∧ magmax c ^ c.dbk * 10 ^ d.toNat ≤ m ^ c.dbk * 10 ^ (-d).toNat := by
  simp [above]

theorem above_zero (c : Config) (d : Int) : above c d 0 = false := rfl

/-- A power of ten with an integer exponent as a quotient of natural ones, the form the comparator uses (R160). -/
theorem ten_zpow_eq_div (d : Int) : (10 : ℝ) ^ d = 10 ^ d.toNat / 10 ^ (-d).toNat := by
  rw [← zpow_natCast, ← zpow_natCast, ← zpow_sub₀ (by norm_num), Int.toNat_sub_toNat_neg]

/-- The comparator is the inequality of decibels: both say `10^D <= (m / MAGMAX)^DBK` (R159, R160). -/
theorem above_iff_le_logb {c : Config} {m : Nat} (hc : 0 < magmax c) (hm : 0 < m) (d : Int) :
    above c d m = true ↔ (d : ℝ) ≤ (c.dbk : ℝ) * Real.logb 10 ((m : ℝ) / (magmax c : ℝ)) := by
  have hmag : (0 : ℝ) < magmax c := Nat.cast_pos.2 hc
  have hquot : (0 : ℝ) < m / magmax c := div_pos (Nat.cast_pos.2 hm) hmag
  calc above c d m = true
      ↔ magmax c ^ c.dbk * 10 ^ d.toNat ≤ m ^ c.dbk * 10 ^ (-d).toNat :=
        (above_iff c d m).trans (and_iff_right hm.ne')
    _ ↔ (10 : ℝ) ^ d.toNat * (magmax c : ℝ) ^ c.dbk ≤ (m : ℝ) ^ c.dbk * 10 ^ (-d).toNat := by
        rw [mul_comm (magmax c ^ c.dbk)]
        exact_mod_cast Iff.rfl
    _ ↔ (10 : ℝ) ^ d.toNat / 10 ^ (-d).toNat ≤ (m : ℝ) ^ c.dbk / (magmax c : ℝ) ^ c.dbk :=
        (div_le_div_iff₀ (by positivity) (by positivity)).symm
    _ ↔ (10 : ℝ) ^ (d : ℝ) ≤ ((m : ℝ) / magmax c) ^ c.dbk := by
        rw [Real.rpow_intCast, ten_zpow_eq_div, div_pow]
    _ ↔ (d : ℝ) ≤ (c.dbk : ℝ) * Real.logb 10 ((m : ℝ) / (magmax c : ℝ)) := by
        rw [← Real.logb_pow, Real.le_logb_iff_rpow_le (by norm_num) (by positivity)]

/-- A greater magnitude is above every threshold a smaller one is above. -/
theorem above_mono {c : Config} {d : Int} {m n : Nat} (hmn : m ≤ n) (h : above c d m = true) :
    above c d n = true := by
  obtain ⟨hne, hle⟩ := (above_iff c d m).1 h
  exact (above_iff c d n).2 ⟨by omega, hle.trans (Nat.mul_le_mul_right _ (Nat.pow_le_pow_left hmn _))⟩

/-- A magnitude that is above while the one before it is not is the least that is. -/
theorem above_iff_least_le {c : Config} {d : Int} {t : Nat} (ht : above c d t = true)
    (hpred : above c d (t - 1) = false) (m : Nat) : above c d m = true ↔ t ≤ m := by
  refine ⟨fun h => ?_, fun h => above_mono h ht⟩
  by_contra hlt
  have := above_mono (by omega : m ≤ t - 1) h
  simp [hpred] at this

/-- A lower threshold lets more magnitudes through. -/
theorem above_of_le {c : Config} {d e : Int} {m : Nat} (hed : e ≤ d) (h : above c d m = true) :
    above c e m = true := by
  obtain ⟨hne, hle⟩ := (above_iff c d m).1 h
  refine (above_iff c e m).2 ⟨hne, ?_⟩
  calc magmax c ^ c.dbk * 10 ^ e.toNat
      ≤ magmax c ^ c.dbk * 10 ^ d.toNat :=
        Nat.mul_le_mul_left _ (Nat.pow_le_pow_right (by decide) (Int.toNat_le_toNat hed))
    _ ≤ m ^ c.dbk * 10 ^ (-d).toNat := hle
    _ ≤ m ^ c.dbk * 10 ^ (-e).toNat :=
        Nat.mul_le_mul_left _ (Nat.pow_le_pow_right (by decide) (Int.toNat_le_toNat (by omega)))

/-! ### The obligations -/

/-- Settles O42: by induction over the ticks done (`runSteps_listen`), period `n` is a tick step of the session. -/
theorem pollTimerIsPeriodic : Obligations.PollTimerIsPeriodic := by
  intro s hinv hm hr hc hi hq n hpos
  obtain ⟨n, rfl⟩ := Nat.exists_eq_add_one.2 hpos
  obtain ⟨u, hu, _, hrun⟩ := runSteps_listen hinv.poll_pos hm hr hc hi hq n
  obtain ⟨v, hv, hpolling⟩ := hu.tick hinv.poll_pos
  refine ⟨nextPeriod v, by rw [hrun, hv]; rfl, ?_⟩
  rw [nextPeriod_mode, nextPeriod_tickcnt, nextPeriod_reading, nextPeriod_events, nextPeriod_rxcnt,
    nextPeriod_rxfifo]
  exact ⟨hpolling.mode, hpolling.tickcnt, hpolling.fresh⟩

/-- Settles O44: the detection tick in closed form (`tick_of_detection`); the captured cells read back, the scan
finds the first maximum, and the classification of the reading writes only its own fields. -/
theorem detectionReadsTheFrame : Obligations.DetectionReadsTheFrame := by
  intro s hm hdue hi hbins
  have hlen := portFrame_length s
  have hne : portFrame s ≠ [] := List.ne_nil_of_length_pos (by omega)
  have hcells : ∀ k < s.cfg.nbins.toNat, memRead (captureFrame s).frame k = (portFrame s)[k]? :=
    fun _ => memRead_memCapture_lt s.frame hlen
  obtain ⟨hpeak, hmax, hfirst⟩ := scanCells_spec hne
  refine ⟨_, tick_of_detection hm hdue hi, ?onlyThese, hlen, frameSamples_le _ _ _ _ _, hcells,
    fun k hk x hx hle => ?listed, fun _ => memRead_memCapture_ge s.frame hlen, hpeak, hmax, hfirst, rfl,
    fun hv => ?valid, fun hv => ?invalid⟩
  case onlyThese =>
    exact congrArg (advanceClk ∘ withScan 0 0 (captureFrame s).frame (frameReading s)) (classifyReading_writes _ s)
  case listed => exact (hcells k hk).trans (frameSamples_of_listed _ _ _ _ _ _ _ hk hx hle)
  case valid =>
    have hc : classifyReading (frameReading s) s =
        classify (frameReading s).bin { s with events := s.events ||| 0b1000 } := classifyReading_of_valid hv
    rw [hc]
    exact ⟨classify_sticky (s := { s with events := _ }) (by simp) _, _, rfl, rfl, rfl, rfl, rfl, rfl⟩
  case invalid =>
    rw [classifyReading_of_invalid (r := frameReading s) hv]
    exact ⟨rfl, rfl, rfl, rfl, rfl⟩

/-- Settles O45: the comparator is the inequality of decibels (`above_iff_le_logb`); each magnitude of the list is
above its threshold and the one before it is not; below -48 even a magnitude of 1 is above. -/
theorem thresholdIsTheDecibelMeasure : Obligations.ThresholdIsTheDecibelMeasure := by
  have hlist : ∀ p ∈ ([(0, 255), (-6, 128), (-20, 26), (-30, 9), (-40, 3), (-48, 2)] : List (Int × Nat)),
      above Config.reference p.1 p.2 = true ∧ above Config.reference p.1 (p.2 - 1) = false := by decide
  have hone : above Config.reference (-49) 1 = true := by decide
  exact ⟨fun c d m hc => ⟨fun hm => above_iff_le_logb (magmax_pos hc.magw_ge) hm d, above_zero c d⟩,
    fun p hp => above_iff_least_le (hlist p hp).1 (hlist p hp).2,
    fun d hd => above_iff_least_le (above_of_le hd hone) (above_zero _ d)⟩

/-- Settles O30: the branches of `LISTEN` in order. -/
theorem listenStartsASession : Obligations.ListenStartsASession :=
  ⟨rfl, noOtherWordOfItsOp (mnemonic := "LISTEN") (by decide), fun _ => ⟨fun hm => if_pos hm,
    fun hm hi => (if_neg (not_not.2 hm)).trans (if_pos hi), exec_listen_accepted⟩⟩

/-- Settles O31: the two branches of `RXSTOP`; both leave a mode in which it is a no-op. -/
theorem rxstopEndsASession : Obligations.RxstopEndsASession := by
  refine ⟨rfl, noOtherWordOfItsOp (mnemonic := "RXSTOP") (by decide), fun s => ⟨exec_rxstop_of_listening,
    exec_rxstop_of_not_listening, fun t ht => ?again, fun t hm ht => ?silent⟩⟩
  case again =>
    apply exec_rxstop_of_not_listening
    by_cases hm : s.mode = .listening
    · rw [exec_rxstop_of_listening hm] at ht
      cases ht
      exact (by decide : Mode.idle ≠ .listening)
    · rw [exec_rxstop_of_not_listening hm] at ht
      cases ht
      exact hm
  case silent =>
    rw [exec_rxstop_of_listening hm] at ht
    cases ht
    exact tick_of_idle rfl

/-- Settles O43: the timer counts, or a detection tick without input posts `DeviceError`. -/
theorem listenTickCountsOrPostsDeviceError : Obligations.ListenTickCountsOrPostsDeviceError :=
  fun _ hm => ⟨fun hlt => ⟨_, toNat_tickcnt_succ (Nat.lt_of_succ_lt hlt), tick_of_pollCounting hm hlt.ne⟩,
    tick_of_deviceError hm⟩

end Sys2Proof
end

section
/-! The symbol decoder family (43_symbol_decoder.md). The window test is a distance in scaled integers (R171); from
it come the exact rational distance, the bins at the reset values, and when two windows cannot overlap. -/

namespace Sys2Proof

open Sys2Proof.Machine

/-! ### The window test -/

section Window

variable {s : State} {k fc : Nat}

/-- The two ends of the window, scaled by `2 * NBINS` and with no subtraction (R171). -/
theorem inWindow_iff :
    inWindow s k fc = true ↔
      k * s.config.fs ≤ 2 * s.cfg.nbins.toNat * fc + 2 * s.cfg.nbins.toNat * s.config.tol ∧
      2 * s.cfg.nbins.toNat * fc ≤ k * s.config.fs + 2 * s.cfg.nbins.toNat * s.config.tol := by
  rw [inWindow, decide_eq_true_iff]
  omega

/-- `freq(k) - fc` is the scaled difference over `2 * NBINS`, so the window is its distance from 0. -/
theorem inWindow_iff_abs_le (hn : 1 ≤ s.cfg.nbins.toNat) :
    inWindow s k fc = true ↔ |binFrequency s k - (fc : ℚ)| ≤ (s.config.tol : ℚ) := by
  have hpos : (0 : ℚ) < 2 * s.cfg.nbins.toNat := by exact_mod_cast Nat.mul_pos two_pos hn
  have hdiff : binFrequency s k - fc =
      (k * s.config.fs - 2 * s.cfg.nbins.toNat * fc) / (2 * s.cfg.nbins.toNat) := by
    rw [binFrequency, sub_div, mul_div_cancel_left₀ _ hpos.ne']
  rw [hdiff, abs_div, abs_of_pos hpos, div_le_iff₀' hpos, abs_sub_le_iff, sub_le_iff_le_add', sub_le_iff_le_add',
    inWindow_iff]
  exact_mod_cast Iff.rfl

/-- A bin in the windows around `f` and `f + d` puts the two centres at most `2 * TOL` apart (R173). -/
theorem le_of_inWindow_both {f d : Nat} (hn : 1 ≤ s.cfg.nbins.toNat) (hf : inWindow s k f = true)
    (hd : inWindow s k (f + d) = true) : d ≤ 2 * s.config.tol := by
  obtain ⟨hupper, -⟩ := inWindow_iff.1 hf
  obtain ⟨-, hlower⟩ := inWindow_iff.1 hd
  have hscaled : 2 * s.cfg.nbins.toNat * d ≤ 2 * s.cfg.nbins.toNat * (2 * s.config.tol) := by linarith
  exact Nat.le_of_mul_le_mul_left hscaled (by omega)

/-- The window test with the reset value of `NBINS` and the reference `FS` and `TOL` (R11, R21). -/
theorem inWindow_reset_iff (hcfg : s.cfg = State.reset.cfg) (hconf : s.config = Config.reference) :
    inWindow s k fc = true ↔ k * 48000 ≤ 2048 * fc + 512000 ∧ 2048 * fc ≤ k * 48000 + 512000 := by
  rw [inWindow_iff, hcfg, hconf]
  exact Iff.rfl

theorem inWindow_reset_f0_iff (hcfg : s.cfg = State.reset.cfg) (hconf : s.config = Config.reference) :
    inWindow s k 18000 = true ↔ 758 ≤ k ∧ k ≤ 778 := by
  rw [inWindow_reset_iff hcfg hconf]
  omega

theorem inWindow_reset_f1_iff (hcfg : s.cfg = State.reset.cfg) (hconf : s.config = Config.reference) :
    inWindow s k 19000 = true ↔ 800 ≤ k ∧ k ≤ 821 := by
  rw [inWindow_reset_iff hcfg hconf]
  omega

end Window

/-! ### The classification -/

section Classification

variable {s : State} {k : Nat}

/-- R170: exactly one window, that of the bit's own tone. -/
theorem classifyBin_eq_some_iff {b : Bool} :
    classifyBin s k = some b ↔
      inWindow s k (toneFrequency s b) = true ∧ inWindow s k (toneFrequency s (!b)) = false := by
  rw [classifyBin, ← toneFrequency_true, ← toneFrequency_false]
  cases b with
  | false => split <;> simp [*]
  | true => split <;> simp [*]

/-- R170: a reading is dropped when it is in both windows or in neither. -/
theorem classifyBin_eq_none_iff :
    classifyBin s k = none ↔
      inWindow s k (toneFrequency s false) = inWindow s k (toneFrequency s true) := by
  rw [classifyBin, ← toneFrequency_true, ← toneFrequency_false]
  split <;> simp [*]

theorem classify_of_some {b : Bool} (h : classifyBin s k = some b) : classify k s = accumulate b s := by
  rw [classify, h]

theorem classify_of_none (h : classifyBin s k = none) : classify k s = s := by
  rw [classify, h]

/-- R173: with `DELTA` = 0 the two windows are one. -/
theorem classifyBin_of_delta_zero (h : s.cfg.delta = 0) : classifyBin s k = none := by
  rw [classifyBin_eq_none_iff, toneFrequency, toneFrequency, h]
  rfl

theorem toneFrequency_reset (hcfg : s.cfg = State.reset.cfg) :
    toneFrequency s false = 18000 ∧ toneFrequency s true = 19000 := by
  rw [toneFrequency, toneFrequency, hcfg]
  exact ⟨rfl, rfl⟩

/-- The bins of the two bits at the reset values: the two intervals do not meet, so a bin of one is not in the
window of the other. -/
theorem classifyBin_reset (hcfg : s.cfg = State.reset.cfg) (hconf : s.config = Config.reference) :
    classifyBin s k =
      if 758 ≤ k ∧ k ≤ 778 then some false else if 800 ≤ k ∧ k ≤ 821 then some true else none := by
  obtain ⟨hf0, hf1⟩ := toneFrequency_reset hcfg
  have h0 := inWindow_reset_f0_iff (k := k) hcfg hconf
  have h1 := inWindow_reset_f1_iff (k := k) hcfg hconf
  split_ifs with hbit0 hbit1
  · rw [classifyBin_eq_some_iff, Bool.not_false, hf0, hf1, ← Bool.not_eq_true, h0, h1]
    omega
  · rw [classifyBin_eq_some_iff, Bool.not_true, hf0, hf1, ← Bool.not_eq_true, h0, h1]
    omega
  · rw [classifyBin_eq_none_iff, hf0, hf1, Bool.eq_iff_iff, h0, h1]
    omega

end Classification

/-! ### The obligations -/

/-- Settles O46: the scaled test is the exact distance for every bin and centre, and its bins at the reset values. -/
theorem windowIsTheFrequencyDistance : Obligations.WindowIsTheFrequencyDistance :=
  ⟨fun _ _ _ hn => inWindow_iff_abs_le hn, fun _ hcfg hconf _ =>
    ⟨inWindow_reset_f0_iff hcfg hconf, inWindow_reset_f1_iff hcfg hconf, classifyBin_reset hcfg hconf⟩⟩

/-- Settles O47: the outcome by window, what each outcome does, and when the windows coincide or are disjoint. -/
theorem classificationIsByWindow : Obligations.ClassificationIsByWindow :=
  fun _ _ => ⟨fun _ => classifyBin_eq_some_iff, fun _ => classify_of_some, classify_of_none,
    classifyBin_of_delta_zero, fun hn hlt ⟨hf, hd⟩ => absurd (le_of_inWindow_both hn hf hd) (by omega)⟩

end Sys2Proof
end

section
/-! The modem facade family (44_modem_facade.md). The facade's own commands are settled by the branches of their
meanings; the status table by one rule for the commands that ask for Idle. The mode machine comes from two
inversions, one of the command part (`CommandEdge`) and one of the tick step (`tick_mode_cases`); a period whose
command only answers is a period without a command, but for the response. -/

namespace Sys2Proof

open Sys2Proof.Machine

/-! ### The words of the facade's commands -/

/-- The fields of a word side by side (R81). -/
theorem fieldsWord_eq_or (op r : BitVec 4) (imm : BitVec 24) :
    fieldsWord op r imm = op.zeroExtend 32 <<< 28 ||| r.zeroExtend 32 <<< 24 ||| imm.zeroExtend 32 := by
  have h := BitVec.setWidth_append_append_eq_shiftLeft_setWidth_or (w''' := 32) (b := op) (b' := r) (b'' := imm)
  rwa [BitVec.setWidth_eq] at h

theorem setcfgWord_eq_encode (r : BitVec 4) (v : CfgWord) :
    0x10000000 ||| (r.zeroExtend 32 <<< 24) ||| v.zeroExtend 32 = encode (.setcfg r v) :=
  (fieldsWord_eq_or 1 r v).symm

theorem getcfgWord_eq_encode : ∀ r : BitVec 4, 0x20000000 ||| (r.zeroExtend 32 <<< 24) = encode (.getcfg r) := by
  decide

theorem evclrWord_eq_encode : ∀ m : BitVec 4, 0xB0000000 ||| m.zeroExtend 32 = encode (.evclr m) := by decide

theorem irqenWord_eq_encode : ∀ m : BitVec 4, 0xC0000000 ||| m.zeroExtend 32 = encode (.irqen m) := by decide

/-! ### Configuration registers -/

theorem detth_legal_iff (v : CfgWord) :
    (-255 ≤ sext24 v ∧ sext24 v ≤ 0) ↔ v.toNat = 0 ∨ (0xFFFF01 ≤ v.toNat ∧ v.toNat ≤ 0xFFFFFF) := by
  have hlt := v.isLt
  rw [sext24, BitVec.toInt_eq_toNat_cond]
  split <;> omega

/-- A write to a configuration register writes nothing but the registers. -/
theorem cfgWrite_eq_withCfg (r : CfgReg) (v : CfgWord) (s : State) :
    cfgWrite r v s = { s with cfg := (cfgWrite r v s).cfg } := by
  cases r <;> rfl

section Commands

variable {r : BitVec 4} {reg : CfgReg} {v : CfgWord} {s : State}

/-- `SETCFG` of an existing register: the mode decides, then the value. -/
theorem exec_setcfg_of_reg (hr : cfgRegOf r = some reg) :
    exec (.setcfg r v) s = if s.mode ≠ .idle then raise .locked s
      else if legal s.config reg v = false then raise .badValue s
      else respond (v.zeroExtend 32) (cfgWrite reg v s) := by
  simp only [exec, execSetcfg, hr]

theorem exec_getcfg_of_reg (hr : cfgRegOf r = some reg) :
    exec (.getcfg r) s = respond ((cfgRead reg s).zeroExtend 32) s := by
  simp only [exec, execGetcfg, hr]

theorem exists_reg_of_cfgNumberOk (h : cfgNumberOk r = true) : ∃ reg, cfgRegOf r = some reg := by
  have hsome : ∀ r : BitVec 4, cfgNumberOk r = true → (cfgRegOf r).isSome = true := by decide
  exact Option.isSome_iff_exists.1 (hsome r h)

/-- Every status register but `SR[11]` is read without a side effect. -/
theorem statusLatch_of_ne {n : BitVec 4} (h : n ≠ 11) (s : State) : statusLatch (sregOf n) s = s :=
  if_neg (mt sregOf_eq_clklo h)

end Commands

theorem ofNat_mod_two_pow (w n : Nat) : BitVec.ofNat w (n % 2 ^ w) = BitVec.ofNat w n :=
  BitVec.eq_of_toNat_eq (by simp)

/-! ### The interrupt line -/

/-- `irq` is 1 exactly when an event bit is set and enabled (R218). -/
theorem irq_iff (s : State) :
    irq s = true ↔ ∃ k < 4, s.events.getLsbD k = true ∧ s.irqen.getLsbD k = true := by
  simp [irq, BitVec.eq_of_getLsbD_eq_iff]

/-! ### The status of a response -/

section Status

variable {s t : State}

theorem status_of_respond {d : Word} {e : State} (h : respond d e = .next t) : t.rsp.status = 0 := by
  rw [respond_eq_next h, answer_rsp]

theorem status_of_raise {c : Cause} (h : raise c s = .next t) : t.rsp.status = causeCode c := by
  rw [raise_eq_next h, answer_rsp]

/-- A command that asks for Idle answers one cause in every other mode; in Idle the rest of it decides. -/
theorem status_of_idleOnly {c : Cause} {rest : Result} {P : BitVec 8 → Prop}
    (h : (if s.mode ≠ .idle then raise c s else rest) = .next t) (hrest : rest = .next t → P t.rsp.status) :
    if s.mode = .idle then P t.rsp.status else t.rsp.status = causeCode c := by
  by_cases hm : s.mode = .idle
  · rw [if_neg (not_not.2 hm)] at h
    rw [if_pos hm]
    exact hrest h
  · rw [if_pos hm] at h
    rw [if_neg hm]
    exact status_of_raise h

theorem execRxget_status (h : execRxget s = .next t) : t.rsp.status = 0 ∨ t.rsp.status = 0x14 := by
  unfold execRxget at h
  split at h
  · exact .inr (status_of_raise h)
  · exact .inl (status_of_respond h)

theorem execTxstop_status (h : execTxstop s = .next t) : t.rsp.status = 0 := by
  unfold execTxstop at h
  split at h <;> exact status_of_respond h

theorem execRxstop_status (h : execRxstop s = .next t) : t.rsp.status = 0 := by
  unfold execRxstop at h
  split at h <;> exact status_of_respond h

theorem exec_setcfg_status {r : BitVec 4} {v : CfgWord} (hr : cfgNumberOk r = true)
    (h : exec (.setcfg r v) s = .next t) :
    if s.mode = .idle then t.rsp.status = 0 ∨ t.rsp.status = 0x11 else t.rsp.status = 0x12 := by
  obtain ⟨reg, hreg⟩ := exists_reg_of_cfgNumberOk hr
  rw [exec_setcfg_of_reg hreg] at h
  refine status_of_idleOnly (P := fun st => st = 0 ∨ st = 0x11) h fun h => ?_
  split at h
  · exact .inr (status_of_raise h)
  · exact .inl (status_of_respond h)

theorem exec_getcfg_status {r : BitVec 4} (hr : cfgNumberOk r = true) (h : exec (.getcfg r) s = .next t) :
    t.rsp.status = 0 := by
  obtain ⟨reg, hreg⟩ := exists_reg_of_cfgNumberOk hr
  rw [exec_getcfg_of_reg hreg] at h
  exact status_of_respond h

theorem execTxput_status {c : Byte} (h : execTxput c s = .next t) :
    if s.mode = .idle then t.rsp.status = 0 ∨ t.rsp.status = 0x13 else t.rsp.status = 0x12 := by
  refine status_of_idleOnly (P := fun st => st = 0 ∨ st = 0x13) h fun h => ?_
  split at h
  · exact .inr (status_of_raise h)
  · split at h
    · cases h
    · exact .inl (status_of_respond h)

theorem execTxclr_status (h : execTxclr s = .next t) :
    if s.mode = .idle then t.rsp.status = 0 else t.rsp.status = 0x12 :=
  status_of_idleOnly (P := fun st => st = 0) h status_of_respond

theorem execTransmit_status (h : execTransmit s = .next t) :
    if s.mode = .idle then t.rsp.status = 0 ∨ t.rsp.status = 0x01 ∨ t.rsp.status = 0x04
    else t.rsp.status = 0x02 := by
  refine status_of_idleOnly (P := fun st => st = 0 ∨ st = 0x01 ∨ st = 0x04) h fun h => ?_
  split at h
  · exact .inr (.inl (status_of_raise h))
  · split at h
    · cases h
    · split at h
      · exact .inl (status_of_respond h)
      · exact .inr (.inr (status_of_raise h))

theorem execListen_status (h : execListen s = .next t) :
    if s.mode = .idle then t.rsp.status = 0 ∨ t.rsp.status = 0x03 else t.rsp.status = 0x02 := by
  refine status_of_idleOnly (P := fun st => st = 0 ∨ st = 0x03) h fun h => ?_
  split at h
  · exact .inr (status_of_raise h)
  · exact .inl (status_of_respond h)

end Status

/-! ### A command that only answers -/

/-- The rest of a period after its command part, with the ports replaced before it. -/
theorem restOfPeriod_withPorts {s : State} {b : Bool} {r : Response} {p : InputPorts}
    (hi : p.inOk = s.port.inOk) (hf : p.frame = s.port.frame) :
    andThen (tick (withPorts b r p s)) (fun u => .next (nextPeriod u)) =
      andThen (tick s) (fun v => .next (withPorts b r (nextPeriod v).port (nextPeriod v))) := by
  rw [tick_withPorts fun _ _ => ⟨hi, hf⟩]
  cases tick s with
  | next v => exact congrArg _ (nextPeriod_withPorts v)
  | fault f => rfl
  | refused r => rfl

theorem step_withInputs_of_noCommand {s : State} {p : InputPorts} (hr : p.rst = false) (hc : p.cmd = none)
    (hi : p.inOk = s.port.inOk) (hf : p.frame = s.port.frame) :
    step (withInputs p s) = andThen (tick s) (fun v =>
      .next (withPorts false ⟨Config.freeRspStatus s.draws, Config.freeRspData s.draws⟩
        (nextPeriod v).port (nextPeriod v))) := by
  rw [step_of_rst_false (s := withInputs p s) hr, commandPart_of_noCommand (s := withInputs p s) hc]
  exact restOfPeriod_withPorts hi hf

/-- A period whose command only answers ends as the same period without a command, but for the response: the tick
step reads neither the response port nor the command word. -/
theorem step_of_answered {s t : State} {st : BitVec 8} {d : Word} (hr : s.port.rst = false)
    (hc : commandPart s = .next (answer st d s)) (h : step s = .next t) :
    ∃ u, step (withInputs { s.port with cmd := none } s) = .next u ∧ t = Answered st d u := by
  have hanswered : step s = andThen (tick s) (fun v =>
      .next (withPorts true ⟨st, d⟩ (nextPeriod v).port (nextPeriod v))) := by
    rw [step_of_rst_false hr, hc]
    exact restOfPeriod_withPorts (p := s.port) rfl rfl
  have hquiet := step_withInputs_of_noCommand (s := s) (p := { s.port with cmd := none }) hr rfl rfl rfl
  obtain ⟨v, hv, ht⟩ := andThen_eq_next.1 (hanswered.symm.trans h)
  cases ht
  rw [hv] at hquiet
  exact ⟨_, hquiet, rfl⟩

/-- In a session `TRANSMIT` and `LISTEN` only answer `Busy` (R197). -/
theorem commandPart_of_busy {w : Word} {s : State} (hw : w = 0x50000000 ∨ w = 0x70000000) (hm : s.mode ≠ .idle)
    (hc : s.port.cmd = some w) : commandPart s = .next (answer 0x02 0 s) := by
  rcases hw with rfl | rfl
  · exact (commandPart_of_decode (i := .transmit) hc rfl).trans (if_pos hm)
  · exact (commandPart_of_decode (i := .listen) hc rfl).trans (if_pos hm)

/-! ### The edges of the mode machine -/

/-- The command part leaves an effect of a command, with some response at the port; the mode changes only if the
command's word was presented. -/
theorem commandPart_effect_of_word {s u : State} (h : commandPart s = .next u) :
    ∃ i e b r, CommandEffect i s e ∧ u = { e with rspValid := b, rsp := r } ∧
      (e.mode ≠ s.mode → s.port.cmd = some (encode i)) := by
  rcases commandPart_cases h with ⟨_, rfl⟩ | ⟨w, hw, ⟨_, rfl⟩ | ⟨i, hd, hi⟩⟩
  · exact ⟨.nop, s, _, _, .same _ _, rfl, fun hne => absurd rfl hne⟩
  · exact ⟨.nop, s, _, _, .same _ _, rfl, fun hne => absurd rfl hne⟩
  · obtain ⟨st, d, e, rfl, he⟩ := exec_effect hi
    exact ⟨i, e, _, _, he, rfl, fun _ => hw.trans (congrArg some (encode_of_decode hd).1.symm)⟩

/-- The edges of R196 that a command step takes, with what makes it take them. -/
inductive CommandEdge (s u : State) : Prop
  /-- The mode stays, and so does the position in a transmission. -/
  | stay : u.mode = s.mode → u.txcnt = s.txcnt → u.nsym = s.nsym → (s.mode ≠ .idle → u.cfg = s.cfg) →
      CommandEdge s u
  | transmit : s.mode = .idle → u.mode = .transmitting → s.port.cmd = some 0x50000000 → s.port.sinkRdy = true →
      AsciiText s → CommandEdge s u
  | txstop : s.mode = .transmitting → u.mode = .idle → s.port.cmd = some 0x60000000 → CommandEdge s u
  | listen : s.mode = .idle → u.mode = .listening → s.port.cmd = some 0x70000000 → s.port.inOk = true →
      CommandEdge s u
  | rxstop : s.mode = .listening → u.mode = .idle → s.port.cmd = some 0x80000000 → CommandEdge s u

theorem Machine.CommandEffect.edge {i : Instr} {s e : State} (h : CommandEffect i s e)
    (hw : e.mode ≠ s.mode → s.port.cmd = some (encode i)) : CommandEdge s e := by
  have hcfg (hm : s.mode ≠ .idle) : e.cfg = s.cfg := (h.locked hm).1
  cases h with
  | transmit hm hs ht ha => exact .transmit hm rfl (hw (by simp [hm])) hs ((all_isAscii_iff ht).1 ha)
  | txstop hm => exact .txstop hm rfl (hw (by simp [hm]))
  | listen hm hi => exact .listen hm rfl (hw (by simp [hm])) hi
  | rxstop hm => exact .rxstop hm rfl (hw (by simp [hm]))
  | _ => exact .stay (by simp) (by simp) (by simp) hcfg

theorem commandPart_edge {s u : State} (h : commandPart s = .next u) : CommandEdge s u := by
  obtain ⟨i, e, b, r, he, rfl, hw⟩ := commandPart_effect_of_word h
  cases he.edge hw with
  | stay hm hx hn hc => exact .stay hm hx hn hc
  | transmit hm ht hc hs ha => exact .transmit hm ht hc hs ha
  | txstop hm ht hc => exact .txstop hm ht hc
  | listen hm ht hc hi => exact .listen hm ht hc hi
  | rxstop hm ht hc => exact .rxstop hm ht hc

/-- The one edge of R196 that a tick step takes: the completion of a transmission. -/
theorem tick_mode_cases {u v : State} (h : tick u = .next v) :
    v.mode = u.mode ∨
      u.mode = .transmitting ∧ v.mode = .idle ∧ u.txcnt + 1 = u.nsym * u.cfg.tsym.toNat + u.config.guardTicks ∧
        v.events.getLsbD 2 = true := by
  cases hm : u.mode with
  | idle =>
    rw [tick_of_idle hm] at h
    cases h
    exact .inl hm
  | listening =>
    rw [tick_of_listening hm] at h
    cases h
    exact .inl (((pollTimer_frame _).mode).trans hm)
  | transmitting =>
    obtain ⟨o, ho, _⟩ := tick_cases h
    by_cases hend : u.txcnt + 1 = u.nsym * u.cfg.tsym.toNat + u.config.guardTicks
    · rw [tick_of_completing hm ho hend] at h
      cases h
      exact .inr ⟨rfl, rfl, hend, by simp⟩
    · rw [tick_of_counting hm ho hend] at h
      cases h
      exact .inl hm

theorem tick_mode_of_not_transmitting {u v : State} (hm : u.mode ≠ .transmitting) (h : tick u = .next v) :
    v.mode = u.mode :=
  (tick_mode_cases h).resolve_right fun ⟨ht, _⟩ => hm ht

/-! ### The obligations -/

/-- Settles O16: the branches of `SETCFG` in order; the written register is read back by the rule of `CFG`. -/
theorem setcfgWritesOneRegister : Obligations.SetcfgWritesOneRegister := by
  refine ⟨fun r v hr => ?word, noOtherWordOfItsOp (mnemonic := "SETCFG") (by decide), fun c v => ?legal,
    fun r reg v s hr => ?branches⟩
  case word => rw [setcfgWord_eq_encode, decode_encode (i := .setcfg r v) (decide_eq_true hr)]
  case legal => simp only [legal, decide_eq_true_eq, detth_legal_iff, and_self]
  case branches =>
    rw [exec_setcfg_of_reg hr]
    refine ⟨fun hm => if_pos hm, fun hm hl => (if_neg (not_not.2 hm)).trans (if_pos hl), fun hm hl =>
      ⟨(cfgWrite reg v s).cfg, ?written, fun q => ?read⟩⟩
    case written =>
      rw [if_neg (not_not.2 hm), if_neg (by simp [hl]), ← cfgWrite_eq_withCfg]
      rfl
    case read => rw [← cfgWrite_eq_withCfg, cfgRead_cfgWrite]

/-- Settles O33: command by command, the commands that ask for Idle by `status_of_idleOnly`. -/
theorem commandsByMode : Obligations.CommandsByMode := by
  intro i s t hwf h
  refine ⟨?answered, ?status⟩
  case answered =>
    obtain ⟨st, d, e, rfl, _⟩ := exec_effect h
    rfl
  case status =>
    cases i with
    | nop => exact status_of_respond h
    | setcfg r v => exact exec_setcfg_status hwf h
    | getcfg r => exact exec_getcfg_status hwf h
    | txput c => exact execTxput_status h
    | txclr => exact execTxclr_status h
    | transmit => exact execTransmit_status h
    | txstop => exact execTxstop_status h
    | listen => exact execListen_status h
    | rxstop => exact execRxstop_status h
    | rxget => exact execRxget_status h
    | getsr n => exact status_of_respond h
    | evclr m => exact status_of_respond h
    | irqen m => exact status_of_respond h

/-- Settles O35: `TRANSMIT` and `LISTEN` only answer in a session. -/
theorem busyLeavesTheSessionUntouched : Obligations.BusyLeavesTheSessionUntouched :=
  fun _ _ _ hw hm hr hc h => step_of_answered hr (commandPart_of_busy hw hm hc) h

/-- Settles O53: the edge of the command part, then the edge of the tick step. -/
theorem modeMovesOnlyAlongItsEdges : Obligations.ModeMovesOnlyAlongItsEdges := by
  intro s t h
  rcases step_cases h with ⟨hr, rfl⟩ | ⟨_, u, v, hu, hv, rfl⟩
  · simp [hr]
  · have hconfig : u.config = s.config := (commandPart_frame hu).config
    rw [nextPeriod_mode, nextPeriod_events]
    cases commandPart_edge hu with
    | stay hm hx hn hc =>
      rcases tick_mode_cases hv with hvm | ⟨hut, hvi, hend, hdone⟩
      · rw [hvm, hm]
        cases s.mode <;> simp
      · have hst : s.mode = .transmitting := hm.symm.trans hut
        rw [hx, hn, hc (by simp [hst]), hconfig] at hend
        simp [hst, hvi, hend, hdone]
    | transmit hm hut hc hs ha =>
      rcases tick_mode_cases hv with hvm | ⟨_, hvi, _⟩
      · simpa [hm, hvm.trans hut, hc, hs] using ha
      · simp [hm, hvi]
    | txstop hm hui hc => simp [hm, tick_mode_of_not_transmitting (by simp [hui]) hv, hui, hc]
    | listen hm hul hc hi => simp [hm, tick_mode_of_not_transmitting (by simp [hul]) hv, hul, hc, hi]
    | rxstop hm hui hc => simp [hm, tick_mode_of_not_transmitting (by simp [hui]) hv, hui, hc]

/-- Settles O15: `NOP` is the response. -/
theorem nopDoesNothing : Obligations.NopDoesNothing :=
  ⟨rfl, noOtherWordOfItsOp (mnemonic := "NOP") (by decide), fun _ => rfl⟩

/-- Settles O17: an existing register is responded, and the sixteen numbers are read one by one. -/
theorem getcfgReadsOneRegister : Obligations.GetcfgReadsOneRegister := by
  refine ⟨fun r hr => ?word, noOtherWordOfItsOp (mnemonic := "GETCFG") (by decide),
    fun r reg s hr => exec_getcfg_of_reg hr, fun s => rfl⟩
  case word => rw [getcfgWord_eq_encode, decode_encode (i := .getcfg r) (decide_eq_true hr)]

/-- Settles O18: the words by O5; only register 11 has a latch, and its view and its latch are the two halves of
`CLK`. -/
theorem getsrReadsAView : Obligations.GetsrReadsAView := by
  obtain ⟨_, _, hwords, _⟩ := reservedEncodingsAreIllegal
  refine ⟨hwords, noOtherWordOfItsOp (mnemonic := "GETSR") (by decide), fun n s => ⟨fun hn => ?view, ?latch⟩⟩
  case view =>
    simp only [exec, execGetsr, statusLatch_of_ne hn]
    rfl
  case latch =>
    rw [ofNat_mod_two_pow, ofNat_mod_two_pow]
    rfl

/-- Settles O22: the mask's bits are cleared, the others kept. -/
theorem evclrClearsTheSelectedEvents : Obligations.EvclrClearsTheSelectedEvents := by
  refine ⟨fun m => ?word, noOtherWordOfItsOp (mnemonic := "EVCLR") (by decide), fun m s =>
    ⟨s.events &&& ~~~m, rfl, fun k => ?bits⟩⟩
  case word => rw [evclrWord_eq_encode, decode_encode rfl]
  case bits =>
    by_cases hk : k < 4
    · simp [hk]
    · simp [BitVec.getLsbD_of_ge _ _ (Nat.le_of_not_lt hk)]

/-- Settles O23: the mask is written whole, and `irq` reads it with the events. -/
theorem irqenSetsTheMask : Obligations.IrqenSetsTheMask := by
  refine ⟨fun m => ?word, noOtherWordOfItsOp (mnemonic := "IRQEN") (by decide), fun m s => ⟨rfl, irq_iff _⟩⟩
  case word => rw [irqenWord_eq_encode, decode_encode rfl]

end Sys2Proof
end

section
/-! The exceptions family (60_exceptions.md): nothing stops a step from a state with the invariant, a command that
fails changes nothing, and the only writes to `ERR` are those of a detection tick. The stops of the model are an
unwritten or missing cell of the text, so the first rests on `TextWritten`; the causes are read off `CommandDone`
for a command and off the closed forms of the tick step for a detection. -/

namespace Sys2Proof

open Sys2Proof.Machine

/-! ### Nothing stops -/

/-- A part of a step that does not stop. -/
abbrev HasNext (o : Result) : Prop := ∃ t, o = .next t

section Completion

variable {s : State}

theorem hasNext_respond (d : Word) (s : State) : HasNext (respond d s) := ⟨_, rfl⟩

theorem hasNext_raise (c : Cause) (s : State) : HasNext (raise c s) := ⟨_, rfl⟩

/-- A branching part does not stop if neither of its branches does where it is taken. -/
theorem HasNext.ite {c : Prop} [Decidable c] {a b : Result} (ha : c → HasNext a) (hb : ¬c → HasNext b) :
    HasNext (if c then a else b) := by
  split
  · next hc => exact ha hc
  · next hc => exact hb hc

theorem exec_setcfg_hasNext (r : BitVec 4) (v : CfgWord) (s : State) : HasNext (exec (.setcfg r v) s) := by
  cases hr : cfgRegOf r with
  | none =>
    simp only [exec, execSetcfg, hr]
    exact hasNext_raise ..
  | some reg =>
    rw [exec_setcfg_of_reg hr]
    exact .ite (fun _ => hasNext_raise ..) fun _ => .ite (fun _ => hasNext_raise ..) fun _ => hasNext_respond ..

theorem exec_getcfg_hasNext (r : BitVec 4) (s : State) : HasNext (exec (.getcfg r) s) := by
  cases hr : cfgRegOf r with
  | none =>
    simp only [exec, execGetcfg, hr]
    exact hasNext_raise ..
  | some reg =>
    rw [exec_getcfg_of_reg hr]
    exact hasNext_respond ..

/-- `TXPUT` never writes beyond `TXBUF`: a full one answers `BufFull`. -/
theorem execTxput_hasNext (c : Byte) (h : s.txlen ≤ s.config.txbufLen) : HasNext (execTxput c s) :=
  .ite (fun _ => hasNext_raise ..) fun _ => .ite (fun _ => hasNext_raise ..) fun _ =>
    .ite (fun hbeyond => absurd h (Nat.not_le.2 hbeyond)) fun _ => hasNext_respond ..

/-- `TRANSMIT` reads only cells below `TXLEN`. -/
theorem execTransmit_hasNext (h : ∀ j < s.txlen, (memRead s.txbuf j).isSome) : HasNext (execTransmit s) := by
  obtain ⟨text, ht⟩ := exists_text_of_written h
  simp only [execTransmit, ht]
  exact .ite (fun _ => hasNext_raise ..) fun _ => .ite (fun _ => hasNext_raise ..) fun _ =>
    .ite (fun _ => hasNext_respond ..) fun _ => hasNext_raise ..

theorem execRxget_hasNext (s : State) : HasNext (execRxget s) := by
  unfold execRxget
  split
  · exact hasNext_raise ..
  · exact hasNext_respond ..

/-- Every command answers if the text fits `TXBUF` and its cells are written. -/
theorem exec_hasNext (i : Instr) (h : TextWritten s) : HasNext (exec i s) := by
  obtain ⟨hfits, hwritten⟩ := h
  cases i with
  | nop => exact hasNext_respond ..
  | setcfg r v => exact exec_setcfg_hasNext r v s
  | getcfg r => exact exec_getcfg_hasNext r s
  | txput c => exact execTxput_hasNext c hfits
  | txclr => exact .ite (fun _ => hasNext_raise ..) fun _ => hasNext_respond ..
  | transmit => exact execTransmit_hasNext hwritten
  | txstop =>
    by_cases hm : s.mode = .transmitting
    · exact ⟨_, exec_txstop_of_transmitting hm⟩
    · exact ⟨_, exec_txstop_of_not_transmitting hm⟩
  | listen =>
    exact .ite (fun _ => hasNext_raise ..) fun _ => .ite (fun _ => hasNext_raise ..) fun _ => hasNext_respond ..
  | rxstop =>
    by_cases hm : s.mode = .listening
    · exact ⟨_, exec_rxstop_of_listening hm⟩
    · exact ⟨_, exec_rxstop_of_not_listening hm⟩
  | rxget => exact execRxget_hasNext s
  | getsr n => exact hasNext_respond ..
  | evclr m => exact hasNext_respond ..
  | irqen m => exact hasNext_respond ..

theorem commandPart_hasNext (h : TextWritten s) : HasNext (commandPart s) := by
  cases hc : s.port.cmd with
  | none => exact ⟨_, commandPart_of_noCommand hc⟩
  | some w =>
    cases hd : decode w with
    | none => exact ⟨_, commandPart_of_illegal hc hd⟩
    | some i =>
      rw [commandPart_of_decode hc hd]
      exact exec_hasNext i h

/-- Every symbol of a written text has a bit. -/
theorem exists_textBit_of_written (h : ∀ j < s.txlen, (memRead s.txbuf j).isSome) {i : Nat} (hi : i < 8 * s.txlen) :
    ∃ b, textBit s i = some b := by
  obtain ⟨c, hc⟩ := Option.isSome_iff_exists.1 (h (i / 8) (Nat.div_lt_of_lt_mul hi))
  exact ⟨charBit c (i % 8), by rw [textBit, hc]; rfl⟩

/-- The symbol in flight is one of the `8 * TXLEN` symbols of the text, so its cell is written. -/
theorem Inv.exists_toneOut (h : Inv s) : ∃ o, toneOut s = .ok o := by
  cases hm : s.mode with
  | idle => exact ⟨0, by simp [toneOut, hm]⟩
  | listening => exact ⟨0, by simp [toneOut, hm]⟩
  | transmitting =>
    by_cases hg : s.nsym * s.cfg.tsym.toNat ≤ s.txcnt
    · exact ⟨0, toneOut_of_guard hm hg⟩
    · have htone : s.txcnt < s.nsym * s.cfg.tsym.toNat := Nat.lt_of_not_le hg
      obtain ⟨_, hnsym, _, _⟩ := h.transmit hm
      have hsymbol : s.txcnt / s.cfg.tsym.toNat < 8 * s.txlen :=
        hnsym ▸ Nat.div_lt_of_lt_mul (Nat.mul_comm .. ▸ htone)
      obtain ⟨_, hwritten⟩ := h.text
      obtain ⟨b, hb⟩ := exists_textBit_of_written hwritten hsymbol
      exact ⟨_, toneOut_of_symbol hm htone hb⟩

theorem Inv.tick_hasNext (h : Inv s) : HasNext (tick s) := by
  obtain ⟨o, ho⟩ := h.exists_toneOut
  exact ⟨_, tick_of_ok ho⟩

end Completion

/-! ### The statuses that are never answered -/

section Answers

variable {s u : State}

/-- No failure is a `DecodingError` or an `AlreadyListening` (R217). -/
theorem exec_status_ne {i : Instr} (h : exec i s = .next u) : u.rsp.status ≠ 0x05 ∧ u.rsp.status ≠ 0x06 := by
  rcases exec_cases h with ⟨d, e, rfl, _⟩ | ⟨c, rfl, hc⟩
  · exact (by decide : (0 : BitVec 8) ≠ 0x05 ∧ (0 : BitVec 8) ≠ 0x06)
  · rw [answer_rsp]
    rcases hc with rfl | rfl | rfl | rfl | rfl | rfl | rfl | rfl | rfl <;> decide

theorem commandPart_status_ne (h : commandPart s = .next u) (hv : u.rspValid = true) :
    u.rsp.status ≠ 0x05 ∧ u.rsp.status ≠ 0x06 := by
  rcases commandPart_cases h with ⟨_, rfl⟩ | ⟨w, _, ⟨_, rfl⟩ | ⟨i, _, hi⟩⟩
  · exact absurd hv (by simp)
  · exact (by decide : (0x10 : BitVec 8) ≠ 0x05 ∧ (0x10 : BitVec 8) ≠ 0x06)
  · exact exec_status_ne hi

end Answers

/-! ### What posts an error -/

/-- From `s` to `t` either `ERR` was kept or `RxOverflow` was posted (R175, R212). -/
def KeepsErrOrOverflowed (s t : State) : Prop := t.err = s.err ∨ t.err = 0x15 ∧ t.events.getLsbD 1 = true

section Posting

variable {s t : State}

theorem push_err (c : Byte) (s : State) : KeepsErrOrOverflowed s (push c s) := by
  rcases Nat.lt_or_ge s.rxfifo.length s.config.rxfifoDepth with h | h
  · rw [push_of_room h]
    exact .inl rfl
  · rw [push_of_full h]
    exact .inr ⟨rfl, by simp⟩

theorem accumulate_err (b : Bool) (s : State) : KeepsErrOrOverflowed s (accumulate b s) := by
  by_cases h : s.rxcnt = 7
  · rw [accumulate_of_eq_seven h]
    exact push_err _ (setAccumulator 0 0 s)
  · rw [accumulate_of_ne_seven h]
    exact .inl rfl

theorem classify_err (k : Nat) (s : State) : KeepsErrOrOverflowed s (classify k s) := by
  cases h : classifyBin s k with
  | none =>
    rw [classify_of_none h]
    exact .inl rfl
  | some b =>
    rw [classify_of_some h]
    exact accumulate_err b s

theorem classifyReading_err (r : Reading) (s : State) : KeepsErrOrOverflowed s (classifyReading r s) := by
  cases h : r.valid with
  | false =>
    rw [classifyReading_of_invalid h]
    exact .inl rfl
  | true =>
    rw [classifyReading_of_valid h]
    exact classify_err r.bin (setEvents evFreq s)

theorem tick_err_of_transmitting (hm : s.mode = .transmitting) (h : tick s = .next t) : t.err = s.err := by
  obtain ⟨o, ho, _⟩ := tick_cases h
  rw [tick_of_transmitting hm ho] at h
  cases h
  rcases transmitTimer_cases (driveOut o s) with ⟨_, ht⟩ | ⟨_, ht⟩ <;> rw [advanceClk_err, ht] <;> rfl

/-- A detection tick posts `DeviceError` without input; with one it can only overflow the queue. -/
theorem tick_err_of_detection (hm : s.mode = .listening) (hd : s.tickcnt.toNat + 1 = s.cfg.poll.toNat)
    (h : tick s = .next t) :
    t.err = s.err ∨ (t.err = 0x03 ∨ t.err = 0x15) ∧ t.events.getLsbD 1 = true := by
  cases hi : s.port.inOk with
  | false =>
    rw [tick_of_deviceError hm hd hi] at h
    cases h
    exact .inr ⟨.inl rfl, by simp⟩
  | true =>
    rw [tick_of_detection hm hd hi] at h
    cases h
    exact (classifyReading_err (frameReading s) s).imp_right fun ⟨herr, hev⟩ => ⟨.inr herr, hev⟩

/-- `ERR` is written by a detection tick only, which leaves the poll timer at 0. -/
theorem tick_err (h : tick s = .next t) :
    t.err = s.err ∨
      (t.err = 0x03 ∨ t.err = 0x15) ∧ t.events.getLsbD 1 = true ∧ t.mode = .listening ∧ t.tickcnt = 0 := by
  cases hm : s.mode with
  | idle =>
    rw [tick_of_idle hm] at h
    cases h
    exact .inl rfl
  | transmitting => exact .inl (tick_err_of_transmitting hm h)
  | listening =>
    by_cases hd : s.tickcnt.toNat + 1 = s.cfg.poll.toNat
    · have hafter := tick_of_detectionDue hm (beq_iff_eq.2 hd) h
      exact (tick_err_of_detection hm hd h).imp_right fun ⟨herr, hev⟩ => ⟨herr, hev, hafter⟩
    · rw [tick_of_pollCounting hm hd] at h
      cases h
      exact .inl rfl

end Posting

/-! ### The obligations -/

/-- Settles O12: the command part answers because the text is written, and the tick step because the command part
keeps the invariant. -/
theorem everyStepCompletes : Obligations.EveryStepCompletes := by
  intro s h
  cases hr : s.port.rst with
  | true => exact ⟨_, if_pos hr⟩
  | false =>
    obtain ⟨u, hu⟩ := commandPart_hasNext h.text
    obtain ⟨v, hv⟩ := (h.after_commandPart hu).tick_hasNext
    exact ⟨_, step_of_parts hr hu hv⟩

/-- Settles O32: a command with an effect answers `OK`; every other one leaves only its cause at the port. -/
theorem failedCommandChangesNothing : Obligations.FailedCommandChangesNothing := by
  intro i s t h hst
  rcases exec_cases h with ⟨d, e, rfl, _⟩ | ⟨c, rfl, _⟩
  · exact absurd rfl hst
  · rfl

/-- Settles O56: no command writes `ERR`, and the tick step only in a detection; it leaves the response as the
command part made it. -/
theorem errorsArePostedByDetectionOnly : Obligations.ErrorsArePostedByDetectionOnly := by
  intro s t h hr
  rcases step_cases h with ⟨hr', _⟩ | ⟨_, u, v, hu, hv, rfl⟩
  · exact absurd (hr.symm.trans hr') (by decide)
  · have herr : u.err = s.err := (commandPart_frame hu).err
    have hframe := tick_frame hv
    have hvalid : v.rspValid = u.rspValid := hframe.rspValid
    have hrsp : v.rsp = u.rsp := hframe.rsp
    rw [nextPeriod_err, nextPeriod_events, nextPeriod_mode, nextPeriod_tickcnt, nextPeriod_rspValid, nextPeriod_rsp,
      ← herr, hvalid, hrsp]
    exact ⟨tick_err hv, commandPart_status_ne hu⟩

end Sys2Proof
end

section
/-! The reset and hazards family (70_reset_and_hazards.md): a reset period gives every piece of state its reset value,
and the two reads of the clock belong together because the first latches the half that the second responds. -/

namespace Sys2Proof

open Sys2Proof.Machine

/-! ### A reset period -/

theorem step_of_rst_true {s : State} (hr : s.port.rst = true) : step s = .next (nextPeriod (resetBlock s)) := if_pos hr

/-- The reset values of R21 that no build parameter moves. -/
theorem cfgRegsInitial_fixed (c : Config) :
    (CfgRegs.initial c).f0.toNat = 18000 ∧ (CfgRegs.initial c).delta.toNat = 1000 ∧
      sext24 (CfgRegs.initial c).detth = -30 ∧ (CfgRegs.initial c).nbins.toNat = 1024 :=
  ⟨rfl, rfl, rfl, rfl⟩

/-- The reset values of R21 that follow from `FS` and `AMP_ONE`, at the reference parameters (R11). -/
theorem cfgRegsInitial_reference :
    (CfgRegs.initial Config.reference).tsym.toNat = 96 ∧ (CfgRegs.initial Config.reference).amp.toNat = 9830 ∧
      (CfgRegs.initial Config.reference).ramp.toNat = 480 ∧ (CfgRegs.initial Config.reference).poll.toNat = 4800 :=
  ⟨rfl, rfl, rfl, rfl⟩

/-- Without an event there is no interrupt, whatever the mask (R218). -/
theorem irq_of_events_zero {s : State} (h : s.events = 0) : irq s = false := by
  simp [irq, h]

/-! ### The two halves of the clock -/

theorem exec_getsr_clklo (s : State) :
    exec (.getsr 11) s = respond (clockLow s.clk) { s with clkhiLatch := clockHigh s.clk } := rfl

theorem exec_getsr_clkhi (s : State) : exec (.getsr 12) s = respond (s.clkhiLatch.zeroExtend 32) s := rfl

/-- A clock of at most 48 bits is its latched half and its low half side by side (R47, R50). -/
theorem clockHigh_clockLow {n : Nat} (h : n < 2 ^ 48) :
    (clockHigh n).toNat * 2 ^ 32 + (clockLow n).toNat = n := by
  have hhigh : (clockHigh n).toNat = n / 2 ^ 32 :=
    (BitVec.toNat_ofNat ..).trans (Nat.mod_eq_of_lt (by omega))
  have hlow : (clockLow n).toNat = n % 2 ^ 32 := BitVec.toNat_ofNat ..
  rw [hhigh, hlow]
  omega

/-! ### The obligations -/

/-- Settles O9: the step is the reset of the block and the end of the period, and the end of the period leaves
every piece of state that reset has written. -/
theorem resetPeriodGivesTheResetValues : Obligations.ResetPeriodGivesTheResetValues := by
  intro s hr
  obtain ⟨hf0, hdelta, hdetth, hnbins⟩ := cfgRegsInitial_fixed s.config
  refine ⟨nextPeriod (resetBlock s), step_of_rst_true hr, ?_⟩
  rw [nextPeriod_cfg, resetBlock_cfg]
  have hirq : irq (nextPeriod (resetBlock s)) = false := irq_of_events_zero (by simp)
  refine ⟨hf0, hdelta, hdetth, hnbins, fun hc => hc ▸ cfgRegsInitial_reference, ?state⟩
  case state => simp [hirq]

/-- Settles O21: `GETSR 11` responds the low half and latches the high one; `GETSR 12` responds the latch, which
both states share. -/
theorem clockHalvesBelongTogether : Obligations.ClockHalvesBelongTogether := by
  intro s t u h hlatch hclk
  rw [exec_getsr_clklo] at h
  obtain rfl := respond_eq_next h
  have hhigh : (u.clkhiLatch.zeroExtend 32).toNat = (clockHigh s.clk).toNat := by
    rw [hlatch]
    exact BitVec.toNat_setWidth_of_le (by decide)
  refine ⟨_, exec_getsr_clkhi u, ?halves, rfl⟩
  case halves =>
    rw [answer_rsp, answer_rsp, hhigh]
    exact clockHigh_clockLow hclk

end Sys2Proof
end
